-- ==== Sys2Proof/Word.lean ====
section
/-! DEFINITION. The widths of the block's words (R12, R23, R34). Nothing is signed (R7). -/

namespace Sys2Proof

/-- A command, response or status word: 32 bits (R12). -/
abbrev Word := BitVec 32

/-- A pixel word (R23): green in [23:16], red in [15:8], blue in [7:0]. -/
abbrev Pixel := BitVec 24

/-- One channel intensity, one byte on the line, or an 8-bit operand field. -/
abbrev Byte := BitVec 8

/-- The OP field [31:29] of a command (R71). -/
abbrev Op := BitVec 3

end Sys2Proof
end

