-- ==== Sys2Proof/Config.lean ====
section
/-! DEFINITION. The OPEN parameters of R6, as one record that State carries, and the free values.

No step changes the record, and a statement about every state is a statement about every configuration
(notes/assumptions/2.md). Lookups and bounds computed from it stand in Sys2Proof/Machine. -/

namespace Sys2Proof

/-- The parameters R6 marks OPEN.

* `fClk`: F_CLK in hertz (V4; a whole number of hertz is a DESIGN CHOICE, log 2).
* `gapSlack`: GAP_CYCLES minus its lower bound, so that no value below the bound can be written (R237, V5).
* `t0h`, `t1h`: the high times of a 0 bit and of a 1 bit in nanoseconds (R139, V6); the
  defaults of general knowledge, 400 and 800, each ±150, are not assumed.
* `openGlyphs`: GLYPH_ROM[1] to GLYPH_ROM[9] (R182, V3).
* `outPin`: OUT_PIN; no rule of the block reads it (R102, V7).
* `base`: BASE of the register-map wrapper, `none` where the platform has no wrapper (R57, V8). -/
structure Config where
  fClk : Nat
  gapSlack : Nat
  t0h : Nat
  t1h : Nat
  openGlyphs : Vector (BitVec 25) 9
  outPin : Nat
  base : Option Nat
  deriving DecidableEq, Repr, Inhabited

/-- The configuration of the chip at hand: uninterpreted, so nothing can be proved of its values (R6, R182). -/
opaque Config.platform : Config

/-- FREE VALUE (V1, R36): word `i` of PIX after the `draw`-th reset. -/
opaque Config.freePixel : Nat → Nat → Pixel

/-- FREE VALUE (V2, R36): LE_HOLD after the `draw`-th reset. -/
opaque Config.freeHold : Nat → Byte

/-- FREE VALUE (V2, R36): LE_SHIFT after the `draw`-th reset. -/
opaque Config.freeShift : Nat → Byte

/-- FREE VALUE (R244; notes/assumptions/12.md): how many BYTE events stay on the trace of a frame that the `draw`-th
reset cuts in DRAIN. R244 bounds the number ("shorter than 75") and does not give it. -/
opaque Config.freeCut : Nat → Fin 75

end Sys2Proof
end

