-- ==== Sys2Proof/Syntax.lean ====
section
/-! DEFINITION. The seven commands of spec/opcode_table.json (R77), and the assembler's source lines (R83 to R85). -/

namespace Sys2Proof

/-- One constructor per row of the opcode table. Operands are the fields of the command word (R72 to R76), in
the word's own order: SETPX has them as IDX, G, R, B, which is not the assembler's order (R84). -/
inductive Instr where
  /-- NOP (R101). -/
  | nop
  /-- INIT (R102). -/
  | init
  /-- SETPX with its fields IDX, G, R, B (R73, R103). -/
  | setpx (idx : BitVec 5) (g r b : Byte)
  /-- CLEAR (R104). -/
  | clear
  /-- FLUSH (R130). -/
  | flush
  /-- MAP with its fields X, Y (R74, R160). -/
  | map (x y : Byte)
  /-- DIGIT with its field D (R75, R184). -/
  | digit (d : Byte)
  deriving DecidableEq, Repr

/-- A source line of the assembler, operands as written, in the assembler's order (R83 to R85). -/
inductive Asm where
  | nop
  | init
  /-- `SETPX idx, r, g, b`: the source's operand order (R84). -/
  | setpx (idx r g b : Nat)
  | clear
  | flush
  | map (x y : Nat)
  | digit (d : Nat)
  /-- The directive `.word v` (R83). -/
  | word (v : Nat)
  /-- Pseudo-instruction: CLEAR then FLUSH (R85). -/
  | blank
  /-- Pseudo-instruction: SETPX at the physical index of (x, y) (R85). -/
  | setxy (x y r g b : Nat)
  deriving DecidableEq, Repr

end Sys2Proof
end

