-- ==== Sys2Proof/Machine/State.lean ====
section
/-! DEFINITION. The state the spec gives the block (R20), what the model observes of it (R142), its environment
(R11), the reasons a step can stop, and the state after reset (R36). -/

namespace Sys2Proof.Machine

/-- PHASE (R28), 2 bits: IDLE = 0, TX = 1, DRAIN = 2, GAP = 3. -/
inductive Phase where
  | idle | tx | drain | gap
  deriving DecidableEq, Repr

/-- CUR_OP (R31), 2 bits: NONE = 0, FLUSH = 1, DIGIT = 2: which command owns the frame or gap in progress. -/
inductive CurOp where
  | none | flush | digit
  deriving DecidableEq, Repr

/-- A completion code, RESP[3:0] (R201). Codes 6 to 15 are never produced, so they have no name here. -/
inductive Code where
  | ok | outOfRange | invalidDigit | resourceUnavailable | notInitialized | illegalCommand
  deriving DecidableEq, Repr

/-- Where the line encoder stands in the bit period of R139: before the rise, in the high time, in the low rest
(notes/assumptions/5.md). -/
inductive BitTime where
  | start | high | low
  deriving DecidableEq, Repr

/-- The line encoder's state (R34), with its place in the bit period R139 describes. -/
structure LineEncoder where
  /-- LE_HOLD. -/
  hold : Byte
  /-- LE_HOLD_FULL. -/
  holdFull : Bool
  /-- LE_SHIFT. -/
  shift : Byte
  /-- LE_BITS, 0 to 8. -/
  bits : Fin 9
  /-- The place in the current bit period. -/
  sub : BitTime
  /-- The level of `dout`. -/
  dout : Bool
  deriving DecidableEq, Repr

/-- An event of the bus trace (R142). -/
inductive BusEvent where
  | byte (b : Byte)
  | latch
  deriving DecidableEq, Repr

/-- One finished bit period on `dout` (R139): the bit, the high time and the low rest in nanoseconds. -/
structure Pulse where
  bit : Bool
  highNs : Nat
  lowNs : Nat
  deriving DecidableEq, Repr

/-- What the host does next (R11, R54, R57, R236). -/
inductive HostAct where
  /-- `cmd_valid` = 0 for one edge. -/
  | pause
  /-- `cmd_valid` = 1 and `cmd_data` = `c` until the block accepts (R236). -/
  | offer (c : Word)
  /-- `cmd_valid` = 1 and `cmd_data` = `c` for one edge only, then withdrawn: a host that breaks R236. -/
  | offerOnce (c : Word)
  /-- `MemRead(addr, size)` through the wrapper (R57). -/
  | load (addr size : Nat)
  /-- `MemWrite(addr, size, v)` through the wrapper (R57). -/
  | store (addr size : Nat) (v : Word)
  deriving DecidableEq, Repr

/-- Who moves: a rising edge of `clk` (host and sequencer), or the line encoder (R11). -/
inductive Mover where
  | clock | lineEncoder
  deriving DecidableEq, Repr

/-- The environment as plain data: its inputs, oldest first (notes/assumptions/3.md, 4.md). -/
structure Env where
  /-- The level of `rst` at the coming clock edges; 0 after the list's end. -/
  rstIn : List Bool
  /-- What the host does next; nothing after the list's end. -/
  host : List HostAct
  /-- Who moves at the coming steps; after the list's end clock and line encoder take turns. -/
  sched : List Mover
  /-- Whose turn it is once `sched` is used up. -/
  turn : Mover
  /-- How many resets have drawn free values so far. -/
  draws : Nat
  deriving DecidableEq, Repr

/-- What has been observed so far, oldest first; nothing else in the state depends on it. -/
structure Log where
  /-- The bus trace (R142). -/
  trace : List BusEvent
  /-- The bit periods sent on `dout` (R139). -/
  line : List Pulse
  /-- The values `MemRead` returned to the host (R57). -/
  reads : List Word
  deriving DecidableEq, Repr

/-- The whole state: R20, the parameters of R6, the environment and the observations. -/
structure State where
  /-- The OPEN parameters, GLYPH_ROM[1..9] among them (R6, R32). -/
  cfg : Config
  /-- PIX (R23). -/
  pix : Vector Pixel 25
  /-- INIT_DONE (R24). -/
  initDone : Bool
  /-- RESP (R25). -/
  resp : Word
  /-- RSP_PULSE, the level of `rsp_valid` (R25, R205). -/
  rspPulse : Bool
  /-- PHASE (R28). -/
  phase : Phase
  /-- BYTE_CNT (R29), 7 bits, 0 to 74. -/
  byteCnt : Fin 75
  /-- GAP_CNT (R30), 0 to GAP_CYCLES - 1. -/
  gapCnt : Nat
  /-- CUR_OP (R31). -/
  curOp : CurOp
  /-- The line encoder (R34). -/
  le : LineEncoder
  /-- The environment's coming inputs. -/
  env : Env
  /-- The observations. -/
  log : Log
  deriving DecidableEq, Repr

/-- Why the machine stops. The block itself has no traps (R200). -/
inductive Fault where
  /-- Raised by `step`: the host stands at a register-map access that R54 does not admit, for which "the model gives
  it no step (the host agent is stuck)", the block is quiescent and no reset is coming, so nothing can move again
  (X5). SAFE: the machine stops where the spec's machine makes no further move. -/
  | accessNotAdmitted
  deriving DecidableEq, Repr

/-- Why a step has no meaning in the model. -/
inductive Refusal where
  /-- Raised by `exec` for an instruction that has no meaning yet (none in this model). SAFE. -/
  | notModelled (mnemonic : String)
  deriving DecidableEq, Repr

/-- PIX after a reset: unspecified, any value (R36, V1; notes/assumptions/1.md). -/
def freePixels (draw : Nat) : Vector Pixel 25 := Vector.ofFn fun i => Config.freePixel draw i

/-- The line encoder after a reset (R34, R36): idle, line low, LE_HOLD and LE_SHIFT unspecified. -/
def LineEncoder.afterReset (draw : Nat) : LineEncoder where
  hold := Config.freeHold draw
  holdFull := false
  shift := Config.freeShift draw
  bits := 0
  sub := .start
  dout := false

/-- The machine right after reset (R36), with nothing offered and nothing observed yet. -/
def State.reset : State where
  cfg := Config.platform
  pix := freePixels 0
  initDone := false
  resp := 0x00000000#32
  rspPulse := false
  phase := .gap
  byteCnt := 0
  gapCnt := 0
  curOp := .none
  le := LineEncoder.afterReset 0
  env := { rstIn := [], host := [], sched := [], turn := .clock, draws := 1 }
  log := { trace := [], line := [], reads := [] }

end Sys2Proof.Machine
end

