-- ==== Sys2Proof/Machine/Flags.lean ====
section
/-! DEFINITION. The status bits: the RESP word (R25, R201), the STATUS word (R26) and the level outputs of R12.
The block has no arithmetic flags (R35). -/

namespace Sys2Proof.Machine

/-- The 4-bit number of a completion code (R201). -/
def Code.toBits : Code → BitVec 4
  | .ok => 0#4
  | .outOfRange => 1#4
  | .invalidDigit => 2#4
  | .resourceUnavailable => 3#4
  | .notInitialized => 4#4
  | .illegalCommand => 5#4

/-- The 2-bit number of a phase (R28). -/
def Phase.toBits : Phase → BitVec 2
  | .idle => 0#2
  | .tx => 1#2
  | .drain => 2#2
  | .gap => 3#2

/-- The 2-bit number of CUR_OP (R31). -/
def CurOp.toBits : CurOp → BitVec 2
  | .none => 0#2
  | .flush => 1#2
  | .digit => 2#2

/-- `{op[2:0], 16'b0, result[4:0], 4'b0, code[3:0]}` (R25, R205). -/
def respWord (op : Op) (code : Code) (result : BitVec 5) : Word :=
  op ++ 0#16 ++ result ++ 0#4 ++ code.toBits

/-- The fields of a response word (R25). -/
def respOp (r : Word) : Op := r.extractLsb' 29 3
def respResult (r : Word) : BitVec 5 := r.extractLsb' 8 5
def respCode (r : Word) : BitVec 4 := r.extractLsb' 0 4

/-- BUSY (R26): 1 when PHASE is not IDLE. -/
def busy (s : State) : Bool := decide (s.phase ≠ .idle)

/-- `cmd_ready` (R12): 1 exactly when PHASE = IDLE. -/
def cmdReady (s : State) : Bool := decide (s.phase = .idle)

/-- STATUS (R26), computed from the state: INIT_DONE in [0], BUSY in [1], PHASE in [3:2], zeros above. -/
def statusWord (s : State) : Word :=
  0#28 ++ s.phase.toBits ++ BitVec.ofBool (busy s) ++ BitVec.ofBool s.initDone

/-- `rsp_valid` (R12, R205). -/
def rspValid (s : State) : Bool := s.rspPulse

/-- `rsp_data` (R12, R25). -/
def rspData (s : State) : Word := s.resp

/-- `byte_ready` (R138): the holding register is empty. -/
def byteReady (le : LineEncoder) : Bool := !le.holdFull

/-- `le_idle` (R34, R138): nothing held and no bit left to send. -/
def leIdle (le : LineEncoder) : Bool := !le.holdFull && decide (le.bits = 0)

end Sys2Proof.Machine
end

