-- ==== Sys2Proof/WellFormed.lean ====
section
/-! DEFINITION. Which terms of the syntax can be encoded.

A command's fields have the widths of R72 to R75 by their types, and every value of a field is a legal encoding
(R76, R79), so every `Instr` is well formed; operands outside their RANGE are not ill-formed, they complete with an
error code. What can be ill-formed is a source line of the assembler (R83, R85). -/

namespace Sys2Proof

/-- Every command term has a word (R76, R79): the widths are in the types. -/
def Instr.wf : Instr → Bool
  | .nop => true
  | .init => true
  | .setpx _ _ _ _ => true
  | .clear => true
  | .flush => true
  | .map _ _ => true
  | .digit _ => true

/-- The operand fits a field of `w` bits (R83). -/
def fits (w v : Nat) : Bool := decide (v < 2 ^ w)

/-- A source line the assembler accepts: each operand fits its field, and SETXY names a cell of the grid (R83, R85). -/
def Asm.wf : Asm → Bool
  | .nop => true
  | .init => true
  | .setpx idx r g b => fits 5 idx && fits 8 r && fits 8 g && fits 8 b
  | .clear => true
  | .flush => true
  | .map x y => fits 8 x && fits 8 y
  | .digit d => fits 8 d
  | .word v => fits 32 v
  | .blank => true
  | .setxy x y r g b => decide (x ≤ 4) && decide (y ≤ 4) && fits 8 r && fits 8 g && fits 8 b

end Sys2Proof
end

