-- ==== Sys2Proof/Decode.lean ====
section
/-! DEFINITION. The command word: its fields (R71 to R76), the decoder (R77, R78), then the encoder (R84). -/

namespace Sys2Proof

/-- Bits [31:29] of a command (R71). -/
def opField (c : Word) : Op := c.extractLsb' 29 3

/-- Bits [28:24]: IDX of format P (R73). -/
def idxField (c : Word) : BitVec 5 := c.extractLsb' 24 5

/-- Bits [23:16]: G of format P (R73). -/
def greenField (c : Word) : Byte := c.extractLsb' 16 8

/-- Bits [15:8]: R of format P, X of format C (R73, R74). -/
def highOperand (c : Word) : Byte := c.extractLsb' 8 8

/-- Bits [7:0]: B of format P, Y of format C, D of format D (R73 to R75). -/
def lowOperand (c : Word) : Byte := c.extractLsb' 0 8

/-- Bits [28:0], reserved in format N (R72). -/
def reservedN (c : Word) : BitVec 29 := c.extractLsb' 0 29

/-- Bits [28:16], reserved in format C (R74). -/
def reservedC (c : Word) : BitVec 13 := c.extractLsb' 16 13

/-- Bits [28:8], reserved in format D (R75). -/
def reservedD (c : Word) : BitVec 21 := c.extractLsb' 8 21

/-- Why a word is illegal (R78). -/
inductive Illegal where
  /-- OP = 0b111. -/
  | reservedOp
  /-- A reserved bit of the format that OP selects is 1. -/
  | reservedBits
  deriving DecidableEq, Repr

/-- The decoder, total on words: OP alone selects the format and the operation (R71, R77), and a word with a
reserved OP or a reserved bit set is illegal, never a neighbour of a legal one (R78). -/
def decode (c : Word) : Except Illegal Instr :=
  if opField c = 0b000#3 then
    if reservedN c = 0 then .ok .nop else .error .reservedBits
  else if opField c = 0b001#3 then
    if reservedN c = 0 then .ok .init else .error .reservedBits
  else if opField c = 0b010#3 then
    .ok (.setpx (idxField c) (greenField c) (highOperand c) (lowOperand c))
  else if opField c = 0b011#3 then
    if reservedN c = 0 then .ok .clear else .error .reservedBits
  else if opField c = 0b100#3 then
    if reservedN c = 0 then .ok .flush else .error .reservedBits
  else if opField c = 0b101#3 then
    if reservedC c = 0 then .ok (.map (highOperand c) (lowOperand c)) else .error .reservedBits
  else if opField c = 0b110#3 then
    if reservedD c = 0 then .ok (.digit (lowOperand c)) else .error .reservedBits
  else .error .reservedOp

/-- What the decoder reads from `nbits` table bits of value `w` (the host's entry point). A command is one 32-bit
word (R70), so bits above `nbits` are zero and bits above 31 do not exist. -/
def decodeTableWord (nbits w : Nat) : Option Instr :=
  match decode (BitVec.ofNat 32 (w % 2 ^ nbits)) with
  | .ok i => some i
  | .error _ => none

/-- The OP value of a command (R77). -/
def Instr.op : Instr → Op
  | .nop => 0b000#3
  | .init => 0b001#3
  | .setpx _ _ _ _ => 0b010#3
  | .clear => 0b011#3
  | .flush => 0b100#3
  | .map _ _ => 0b101#3
  | .digit _ => 0b110#3

/-- The word of a command, from the syntax table of R84. -/
def encode : Instr → Word
  | .nop => 0x00000000#32
  | .init => 0x20000000#32
  | .setpx idx g r b => 0b010#3 ++ idx ++ g ++ r ++ b
  | .clear => 0x60000000#32
  | .flush => 0x80000000#32
  | .map x y => 0b101#3 ++ 0#13 ++ x ++ y
  | .digit d => 0b110#3 ++ 0#21 ++ d

/-- A row of the match and mask table of R77. -/
structure OpRow where
  mnemonic : String
  pattern : Word
  mask : Word
  deriving DecidableEq, Repr

/-- The match and mask table of R77. -/
def opRows : List OpRow :=
  [ ⟨"NOP", 0x00000000#32, 0xFFFFFFFF#32⟩,
    ⟨"INIT", 0x20000000#32, 0xFFFFFFFF#32⟩,
    ⟨"SETPX", 0x40000000#32, 0xE0000000#32⟩,
    ⟨"CLEAR", 0x60000000#32, 0xFFFFFFFF#32⟩,
    ⟨"FLUSH", 0x80000000#32, 0xFFFFFFFF#32⟩,
    ⟨"MAP", 0xA0000000#32, 0xFFFF0000#32⟩,
    ⟨"DIGIT", 0xC0000000#32, 0xFFFFFF00#32⟩ ]

/-- A word selects a row when `w & mask == match` (R77). -/
def OpRow.selects (row : OpRow) (c : Word) : Bool := c &&& row.mask == row.pattern

/-- The mnemonic of a command in the opcode table (R77). -/
def Instr.mnemonic : Instr → String
  | .nop => "NOP"
  | .init => "INIT"
  | .setpx _ _ _ _ => "SETPX"
  | .clear => "CLEAR"
  | .flush => "FLUSH"
  | .map _ _ => "MAP"
  | .digit _ => "DIGIT"

end Sys2Proof
end

