-- ==== Sys2Proof/Machine/Operands.lean ====
section
/-! DEFINITION. The operand forms: unsigned immediates only (R76), their ranges (R79), and the classification of a
word by R82. -/

namespace Sys2Proof.Machine

/-- The pixel word of three channels, in wire order (R23, R73). -/
def pixelWord (g r b : Byte) : Pixel := g ++ r ++ b

/-- The channels of a pixel word (R23). -/
def green (p : Pixel) : Byte := p.extractLsb' 16 8
def red (p : Pixel) : Byte := p.extractLsb' 8 8
def blue (p : Pixel) : Byte := p.extractLsb' 0 8

/-- The function `decode` of R82, check by check in its order: `none` is OK. The machine does not run this function;
it runs the decoder and the meanings, and a statement says that the two agree. -/
def classify (c : Word) (initDone : Bool) : Option Code :=
  let op := opField c
  if op = 0b111#3 then some .illegalCommand
  else if op ∈ [0b000#3, 0b001#3, 0b011#3, 0b100#3] ∧ reservedN c ≠ 0 then some .illegalCommand
  else if op = 0b101#3 ∧ reservedC c ≠ 0 then some .illegalCommand
  else if op = 0b110#3 ∧ reservedD c ≠ 0 then some .illegalCommand
  else if initDone = false ∧ op ∉ [0b000#3, 0b001#3] then some .notInitialized
  else if op = 0b001#3 ∧ initDone = true then some .resourceUnavailable
  else if op = 0b010#3 ∧ 25 ≤ (idxField c).toNat then some .outOfRange
  else if op = 0b101#3 ∧ (5 ≤ (highOperand c).toNat ∨ 5 ≤ (lowOperand c).toNat) then some .outOfRange
  else if op = 0b110#3 ∧ 10 ≤ (lowOperand c).toNat then some .invalidDigit
  else none

end Sys2Proof.Machine
end

