-- ==== Sys2Proof/Machine/Ops.lean ====
section
/-! DEFINITION. The shared operations of the commands: responding (R205), raising an error (R203), the INIT gate
(R82), the pixel buffer (R23) and starting a frame (R130), with the parameters' bounds (R6).

`raise` is the block's whole exception entry: there are no traps, so no state is saved, no mode changes and nothing
returns (R200, R208). -/

namespace Sys2Proof.Machine

/-- The outcome of a step of this machine. -/
abbrev Result := Host.Outcome State Fault Refusal

/-- The state a result goes on in, if it goes on. -/
def Result.state? : Result → Option State
  | .next t => some t
  | .fault _ => none
  | .refused _ => none

/-- The least GAP_CYCLES, ceil(100 µs × F_CLK) (R6, R135), and never 0 (R30). -/
def gapMin (c : Config) : Nat := max 1 ((c.fClk + 9999) / 10000)

/-- GAP_CYCLES (R6, R135): at least the bound, by construction. -/
def gapCycles (c : Config) : Nat := gapMin c + c.gapSlack

/-- `respond(op, code, result)` (R205). -/
def respond (op : Op) (code : Code) (result : BitVec 5) (s : State) : State :=
  { s with resp := respWord op code result, rspPulse := true }

/-- `raise code` (R203): respond, and nothing else is written. -/
def raise (op : Op) (code : Code) (s : State) : State := respond op code 0 s

/-- The INIT gate (R24, R82): before INIT, NOT_INITIALIZED whatever the operands (R202). -/
def requireInit (op : Op) (s : State) (k : State → Result) : Result :=
  if s.initDone then k s else .next (raise op .notInitialized s)

/-- 25 words of zero (R102, R104). -/
def zeroPixels : Vector Pixel 25 := Vector.replicate 25 0x000000#24

/-- Replace the whole buffer in one step (R56). -/
def withPix (p : Vector Pixel 25) (s : State) : State := { s with pix := p }

/-- `PIX[i] <- v` (R8): the whole word, the others unchanged (R56). -/
def setPixel (i : Nat) (h : i < 25) (v : Pixel) (s : State) : State := withPix (s.pix.set i v h) s

/-- `Clear()`: every word to zero (R104). -/
def clearPixels (s : State) : State := withPix zeroPixels s

/-- INIT_DONE <- 1 (R102). -/
def claimChannel (s : State) : State := { s with initDone := true }

/-- CUR_OP <- owner, BYTE_CNT <- 0, PHASE <- TX; no response yet (R130, R184). -/
def startFrame (owner : CurOp) (s : State) : State :=
  { s with curOp := owner, byteCnt := 0, phase := .tx }

end Sys2Proof.Machine
end

