-- ==== Sys2Proof/Machine/Driver.lean ====
section
/-! DEFINITION. NOP, INIT, SETPX, CLEAR (40_driver.md): each completes within its acceptance step (R100). -/

namespace Sys2Proof.Machine

/-- NOP (R101): legal before INIT too. -/
def execNop (s : State) : Result := .next (respond 0b000#3 .ok 0 s)

/-- INIT (R102): zero the buffer and claim the channel; a second INIT changes nothing but RESP. -/
def execInit (s : State) : Result :=
  if s.initDone then .next (raise 0b001#3 .resourceUnavailable s)
  else .next (respond 0b001#3 .ok 0 (claimChannel (clearPixels s)))

/-- SETPX (R103): write one pixel word; IDX of 25 to 31 is OUT_OF_RANGE with no write. -/
def execSetpx (idx : BitVec 5) (g r b : Byte) (s : State) : Result :=
  requireInit 0b010#3 s fun s =>
    if h : idx.toNat < 25 then
      .next (respond 0b010#3 .ok 0 (setPixel idx.toNat h (pixelWord g r b) s))
    else .next (raise 0b010#3 .outOfRange s)

/-- CLEAR (R104): zero the buffer, send nothing. -/
def execClear (s : State) : Result :=
  requireInit 0b011#3 s fun s => .next (respond 0b011#3 .ok 0 (clearPixels s))

end Sys2Proof.Machine
end

