-- ==== Sys2Proof/Machine/Flush.lean ====
section
/-! DEFINITION. FLUSH (R130) and the frame it sends (R131). The steps that send it stand in Sequencer.lean. -/

namespace Sys2Proof.Machine

/-- FLUSH, its acceptance part (R130): the response comes at GAP_END (R135). -/
def execFlush (s : State) : Result := requireInit 0b100#3 s fun s => .next (startFrame .flush s)

/-- FRAME_BYTE(k) (R131): bits [23 - 8*(k mod 3) : 16 - 8*(k mod 3)] of PIX[k / 3]. -/
def frameByte (p : Vector Pixel 25) (k : Fin 75) : Byte :=
  (p[k.val / 3]).extractLsb' (16 - 8 * (k.val % 3)) 8

/-- The whole frame, FRAME_BYTE(0) to FRAME_BYTE(74) (R131). -/
def frameBytes (p : Vector Pixel 25) : List Byte := (List.finRange 75).map (frameByte p)

end Sys2Proof.Machine
end

