-- ==== Sys2Proof/Machine/Map.lean ====
section
/-! DEFINITION. The serpentine map M (R161), its inverse (R163), and MAP (R160). -/

namespace Sys2Proof.Machine

/-- M(x, y) in the natural numbers (R161). -/
def mapNat (x y : Nat) : Nat :=
  if y % 2 = 0 then 24 - (y * 5 + x) else 24 - (y * 5 + (4 - x))

/-- M(x, y) on the grid, a physical index (R161, R162). -/
def mapIndex (x y : Fin 5) : Fin 25 := ⟨mapNat x y, by unfold mapNat; split <;> omega⟩

/-- The inverse map in closed form (R163): with r = 4 - i/5 and p = i mod 5, y = r, and x = 4 - p or p. -/
def mapInverse (i : Fin 25) : Fin 5 × Fin 5 :=
  let y := 4 - i.val / 5
  let p := i.val % 5
  (⟨if y % 2 = 0 then 4 - p else p, by dsimp only [p]; split <;> omega⟩, ⟨y, by omega⟩)

/-- MAP (R160): the physical index of (x, y) in RESP.RESULT; a coordinate of 5 or more is OUT_OF_RANGE. -/
def execMap (x y : Byte) (s : State) : Result :=
  requireInit 0b101#3 s fun s =>
    if x.toNat ≤ 4 ∧ y.toNat ≤ 4 then
      .next (respond 0b101#3 .ok (BitVec.ofNat 5 (mapNat x.toNat y.toNat)) s)
    else .next (raise 0b101#3 .outOfRange s)

end Sys2Proof.Machine
end

