-- ==== Sys2Proof/Machine/Glyph.lean ====
section
/-! DEFINITION. The glyph ROM (R32, R180 to R182), the render function (R183) and DIGIT (R184). -/

namespace Sys2Proof.Machine

/-- GLYPH_COLOR (R33): G = R = B = 50. -/
def glyphColor : Pixel := 0x323232#24

/-- GLYPH_ROM[0] (R181). -/
def glyphZero : BitVec 25 := 0x1F8C63F#25

/-- GLYPH_ROM[d] (R32): digit 0 is given, digits 1 to 9 are the configuration's (R182). -/
def glyphRom (c : Config) (d : Fin 10) : BitVec 25 :=
  if h : d.val = 0 then glyphZero else c.openGlyphs[d.val - 1]

/-- `lit(d, x, y)`: bit 5*y + x of the glyph (R180). -/
def lit (glyph : BitVec 25) (x y : Fin 5) : Bool := glyph.getLsbD (5 * y.val + x.val)

/-- The 25 cells of the grid in the order of R184's loops: y outer, x inner. -/
def gridCells : List (Fin 5 × Fin 5) :=
  (List.finRange 5).flatMap fun y => (List.finRange 5).map fun x => (x, y)

/-- One pass of R184's inner loop: a lit cell sets its pixel. -/
def paintCell (glyph : BitVec 25) (p : Vector Pixel 25) (cell : Fin 5 × Fin 5) : Vector Pixel 25 :=
  if lit glyph cell.1 cell.2 then p.set (mapIndex cell.1 cell.2).val glyphColor else p

/-- The buffer DIGIT leaves, by R184's own procedure: clear, then paint the lit cells one after another. -/
def paintGlyph (glyph : BitVec 25) : Vector Pixel 25 := gridCells.foldl (paintCell glyph) zeroPixels

/-- RENDER(d)[i] (R183): the colour where the cell at physical index `i` is lit. -/
def renderPixel (glyph : BitVec 25) (i : Fin 25) : Pixel :=
  if lit glyph (mapInverse i).1 (mapInverse i).2 then glyphColor else 0x000000#24

/-- DIGIT (R184): clear, project the glyph, and start the frame, in one step; a digit of 10 or more is
INVALID_DIGIT, checked before the clear. -/
def execDigit (d : Byte) (s : State) : Result :=
  requireInit 0b110#3 s fun s =>
    if h : d.toNat < 10 then
      .next (startFrame .digit (withPix (paintGlyph (glyphRom s.cfg ⟨d.toNat, h⟩)) s))
    else .next (raise 0b110#3 .invalidDigit s)

end Sys2Proof.Machine
end

