-- ==== Sys2Proof/Machine/Dispatch.lean ====
section
/-! DEFINITION. One arm per command: the case of R100's acceptance step, run on a word that decodes. -/

namespace Sys2Proof.Machine

def exec (i : Instr) (s : State) : Host.Outcome State Fault Refusal :=
  match i with
  | .nop => Sys2Proof.Machine.execNop s
  | .init => Sys2Proof.Machine.execInit s
  | .setpx idx g r b => Sys2Proof.Machine.execSetpx idx g r b s
  | .clear => Sys2Proof.Machine.execClear s
  | .flush => Sys2Proof.Machine.execFlush s
  | .map x y => Sys2Proof.Machine.execMap x y s
  | .digit d => Sys2Proof.Machine.execDigit d s

end Sys2Proof.Machine
end

