-- ==== Sys2Proof/Machine/HostPort.lean ====
section
/-! DEFINITION. The host's side of the ports: the command handshake (R12, R236) and the register-map wrapper (R54,
R57). -/

namespace Sys2Proof.Machine

/-- The three registers of the wrapper (R57). -/
inductive MapReg where
  | cmd | resp | status
  deriving DecidableEq, Repr

/-- Which register an access names; `none` is an access that is not admitted: no wrapper, not 32 bits wide, or not
at BASE + 0x0, 0x4 or 0x8 (R54, R57). -/
def mapReg (c : Config) (addr size : Nat) : Option MapReg :=
  match c.base with
  | none => none
  | some base =>
    if size ≠ 4 then none
    else if addr = base then some .cmd
    else if addr = base + 4 then some .resp
    else if addr = base + 8 then some .status
    else none

/-- The read value of a wrapper register (R57); reading has no side effect on the block (R56). -/
def readMapReg (s : State) : MapReg → Word
  | .cmd => 0x00000000#32
  | .resp => s.resp
  | .status => statusWord s

/-- The command word an act offers on the port, `none` for an act that offers none (R12). A write to CMD offers its
value (R57). -/
def HostAct.commandWord (cfg : Config) : HostAct → Option Word
  | .pause => none
  | .offer c => some c
  | .offerOnce c => some c
  | .load _ _ => none
  | .store addr size v => if mapReg cfg addr size = some .cmd then some v else none

/-- The word on `cmd_data` while `cmd_valid` = 1, `none` while it is 0 (R12). -/
def offered (s : State) : Option Word := s.env.host.head?.bind fun act => act.commandWord s.cfg

/-- The host has a command left to offer (R245). One that stands behind an access that is not admitted is still left,
though the host never comes to it (DEDUCED, notes/assumptions/7.md). -/
def commandLeft (s : State) : Bool := s.env.host.any fun act => (act.commandWord s.cfg).isSome

/-- `cmd_valid` (R12). -/
def cmdValid (s : State) : Bool := (offered s).isSome

/-- The host's act is over. -/
def popHost (s : State) : State := { s with env := { s.env with host := s.env.host.tail } }

/-- The value a `MemRead` returns goes to the host (R57). -/
def returnRead (v : Word) (s : State) : State :=
  { s with log := { s.log with reads := s.log.reads ++ [v] } }

/-- What the host gets done at an edge that does not accept its command: a pause or a withdrawn offer is over, an
admitted read returns, a write to RESP or STATUS is ignored; a held offer and a CMD write wait (R236, R57), and an
access that is not admitted has no step (R54). -/
def hostMove (s : State) : State :=
  match s.env.host with
  | [] => s
  | .pause :: _ => popHost s
  | .offer _ :: _ => s
  | .offerOnce _ :: _ => popHost s
  | .load addr size :: _ =>
    match mapReg s.cfg addr size with
    | none => s
    | some r => popHost (returnRead (readMapReg s r) s)
  | .store addr size _ :: _ =>
    match mapReg s.cfg addr size with
    | none => s
    | some .cmd => s
    | some .resp => popHost s
    | some .status => popHost s

/-- The host stands at an access that is not admitted (R54). -/
def hostStuck (s : State) : Bool :=
  match s.env.host with
  | .load addr size :: _ => decide (mapReg s.cfg addr size = none)
  | .store addr size _ :: _ => decide (mapReg s.cfg addr size = none)
  | _ => false

/-- The block is quiescent: PHASE = IDLE and `rsp_valid` = 0 (R245). -/
def quiescent (s : State) : Bool := decide (s.phase = .idle) && !rspValid s

/-- No agent can move again: the host is stuck, the block is quiescent, and no reset is coming (X5;
notes/assumptions/7.md). -/
def machineStuck (s : State) : Bool := hostStuck s && quiescent s && s.env.rstIn.isEmpty

/-- The boot commands of R234 after its wait: INIT, then DIGIT of the first digit. -/
def bootHost (d : Byte) : List HostAct := [.offer (encode .init), .offer (encode (.digit d))]

end Sys2Proof.Machine
end

