-- ==== Sys2Proof/Machine/LineEncoder.lean ====
section
/-! DEFINITION. The line encoder's moves (R139): load a byte, then per bit a rise, a fall, and the end of the
period. -/

namespace Sys2Proof.Machine

/-- T_BIT in nanoseconds: 1.25 µs, the period of 800 kHz (R6, R139). -/
def tBitNs : Nat := 1250

/-- T1H or T0H (R139). -/
def highTime (c : Config) (bit : Bool) : Nat := if bit then c.t1h else c.t0h

/-- The bit period of `bit`: high for T1H or T0H, low for the rest (R139). -/
def pulseOf (c : Config) (bit : Bool) : Pulse where
  bit := bit
  highNs := highTime c bit
  lowNs := tBitNs - highTime c bit

/-- LE LOAD (R139): LE_SHIFT <- LE_HOLD, LE_HOLD_FULL <- 0, LE_BITS <- 8. -/
def LineEncoder.load (le : LineEncoder) : LineEncoder :=
  { le with shift := le.hold, holdFull := false, bits := 8 }

/-- LOAD when no bit is left and a byte is held (R139). -/
def LineEncoder.loadIfReady (le : LineEncoder) : LineEncoder :=
  if le.bits = 0 ∧ le.holdFull = true then le.load else le

/-- The bit being sent, LE_SHIFT[7]: most significant bit first (R53, R139). -/
def LineEncoder.currentBit (le : LineEncoder) : Bool := le.shift.getLsbD 7

/-- The end of a bit period: LE_SHIFT <- LE_SHIFT << 1, LE_BITS <- LE_BITS - 1 (R139). -/
def LineEncoder.dropBit (le : LineEncoder) : LineEncoder :=
  { le with shift := le.shift <<< 1, bits := ⟨le.bits.val - 1, by omega⟩, sub := .start }

/-- One move of the line encoder (R139). An idle encoder with nothing held does not move; at the end of a byte a
held byte is loaded without a pause. -/
def leMove (s : State) : State :=
  match s.le.sub with
  | .start =>
    if s.le.bits = 0 then { s with le := s.le.loadIfReady }
    else { s with le := { s.le with dout := true, sub := .high } }
  | .high => { s with le := { s.le with dout := false, sub := .low } }
  | .low =>
    { s with
      le := s.le.dropBit.loadIfReady
      log := { s.log with line := s.log.line ++ [pulseOf s.cfg s.le.currentBit] } }

end Sys2Proof.Machine
end

