-- ==== Sys2Proof/Machine/Sequencer.lean ====
section
/-! DEFINITION. The sequencer's steps during a frame and a gap (R132 to R135), and the reset edge (R230). -/

namespace Sys2Proof.Machine

/-- Append an event to the bus trace (R142). -/
def record (e : BusEvent) (s : State) : State :=
  { s with log := { s.log with trace := s.log.trace ++ [e] } }

/-- `emit(b)` (R8, R132): hand a byte to the line encoder's holding register and record it. -/
def emit (b : Byte) (s : State) : State :=
  record (.byte b) { s with le := { s.le with hold := b, holdFull := true } }

/-- `latch()` (R8, R142). -/
def latch (s : State) : State := record .latch s

/-- `byte_valid` (R138): the sequencer offers a byte exactly in TX. -/
def byteValid (s : State) : Bool := decide (s.phase = .tx)

/-- `byte_data` (R138, R132): the next byte of the frame. -/
def byteData (s : State) : Byte := frameByte s.pix s.byteCnt

/-- After byte BYTE_CNT: DRAIN after byte 74, else the next byte (R132). BYTE_CNT never wraps (R22). -/
def advanceByte (s : State) : State :=
  if h : s.byteCnt.val = 74 then { s with phase := .drain }
  else { s with byteCnt := ⟨s.byteCnt.val + 1, by omega⟩ }

/-- An edge in TX (R132), where `byte_valid` = 1: EMIT is the transfer that `byte_ready` = 1 allows (R138); with the
holding register full, nothing. -/
def txEdge (s : State) : State :=
  if byteReady s.le then advanceByte (emit (byteData s) s) else s

/-- An edge in DRAIN (R133): DRAIN_DONE when the line encoder is idle, else nothing. -/
def drainEdge (s : State) : State :=
  if leIdle s.le then { s with phase := .gap, gapCnt := 0 } else s

/-- The response a finished gap owes (R135): none after the post-reset gap. -/
def respondOwner (owner : CurOp) (s : State) : State :=
  match owner with
  | .none => s
  | .flush => respond 0b100#3 .ok 0 s
  | .digit => respond 0b110#3 .ok 0 s

/-- GAP_END (R135). -/
def gapEnd (s : State) : State :=
  { respondOwner s.curOp (latch { s with phase := .idle }) with curOp := .none }

/-- An edge in GAP: a tick below GAP_CYCLES - 1 (R134), GAP_END at it (R135), nothing above it. -/
def gapEdge (s : State) : State :=
  if s.gapCnt < gapCycles s.cfg - 1 then { s with gapCnt := s.gapCnt + 1 }
  else if s.gapCnt = gapCycles s.cfg - 1 then gapEnd s
  else s

/-- The latest `k` BYTE events come off a list that has the latest event first; a LATCH never does. -/
def dropLatest : Nat → List BusEvent → List BusEvent
  | k + 1, .byte _ :: rest => dropLatest k rest
  | _, events => events

/-- The trace without its last `k` BYTE events, or without all those since the last LATCH where they are fewer. -/
def withoutLastBytes (k : Nat) (trace : List BusEvent) : List BusEvent := (dropLatest k trace.reverse).reverse

/-- The bus trace as a reset leaves it (R244). In DRAIN all 75 bytes have been handed over (R132, R142), and R244 has
the model record "a BYTE list shorter than 75": the first `Config.freeCut` of them stay (DESIGN CHOICE that R244 goes
before R142 here, notes/assumptions/12.md). In TX the list is shorter by itself, and it stays as it is. -/
def traceAfterReset (s : State) : List BusEvent :=
  if s.phase = .drain then withoutLastBytes (75 - (Config.freeCut s.env.draws).val) s.log.trace else s.log.trace

/-- An edge with `rst` = 1 (R230, R36): every piece of the block's state to its reset value, the unspecified ones
drawn afresh; the parameters, the environment's inputs and what was observed so far stay; only
the trace of a frame cut in DRAIN gets shorter (R244). -/
def resetBlock (s : State) : State :=
  { State.reset with
    cfg := s.cfg
    pix := freePixels s.env.draws
    le := LineEncoder.afterReset s.env.draws
    env := { s.env with draws := s.env.draws + 1 }
    log := { s.log with trace := traceAfterReset s } }

end Sys2Proof.Machine
end

