-- ==== Sys2Proof/Machine/Edge.lean ====
section
/-! DEFINITION. A rising edge of `clk`: reset (R230), acceptance (R100), or the sequencer's step of the phase, with
the host's own moves; and who moves next (R11). -/

namespace Sys2Proof.Machine

/-- The ACCEPT step's case (R100) on the word `c`: an illegal word completes with ILLEGAL_COMMAND (R78), a legal one
runs its command. -/
def accept (c : Word) (s : State) : Result :=
  match decode c with
  | .ok i => exec i s
  | .error _ => .next (raise (opField c) .illegalCommand s)

/-- The level of `rst` at this edge (R12). -/
def rstLevel (s : State) : Bool := s.env.rstIn.headD false

/-- The level of `rst` at this edge is used up. -/
def popRst (s : State) : State := { s with env := { s.env with rstIn := s.env.rstIn.tail } }

/-- RSP_PULSE falls unless this edge responds (R205). -/
def dropPulse (s : State) : State := { s with rspPulse := false }

/-- The sequencer at an edge that accepts no command (R100, R132 to R135). -/
def sequencerEdge (s : State) : State :=
  match s.phase with
  | .idle => s
  | .tx => txEdge s
  | .drain => drainEdge s
  | .gap => gapEdge s

/-- The edge with `rst` = 0: accept an offered command in IDLE, else the host and the sequencer each make their move;
the host reads the registers as they were before the edge (R238). -/
def runEdge (s : State) : Result :=
  match s.phase, offered s with
  | .idle, some c => accept c (popHost (dropPulse s))
  | _, _ => .next (sequencerEdge (hostMove (dropPulse s)))

/-- A rising edge of `clk`: `rst` wins over every other step (R230). -/
def clockEdge (s : State) : Result :=
  if rstLevel s then .next (resetBlock (popRst s))
  else if machineStuck (popRst s) then .fault .accessNotAdmitted
  else runEdge (popRst s)

/-- The end of the last bit of a byte, with nothing held, while the sequencer is still in TX, at an F_CLK above
100 kHz: the edge that refills the holding register comes first (R141; notes/assumptions/3.md). -/
def refillDue (s : State) : Bool :=
  decide (s.phase = .tx) && !s.le.holdFull && decide (s.le.bits = 1) && decide (s.le.sub = .low) &&
    decide (100000 < s.cfg.fClk)

/-- Who the environment lets move: the schedule's head, or by turns after its end. -/
def scheduled (s : State) : Mover :=
  match s.env.sched with
  | m :: _ => m
  | [] => s.env.turn

/-- Who moves: the scheduled mover, but for R141. -/
def mover (s : State) : Mover :=
  match scheduled s with
  | .clock => .clock
  | .lineEncoder => if refillDue s then .clock else .lineEncoder

/-- The other mover. -/
def Mover.other : Mover → Mover
  | .clock => .lineEncoder
  | .lineEncoder => .clock

/-- The schedule's head is used up, or the turn passes to the other mover. -/
def popMover (s : State) : State :=
  match s.env.sched with
  | _ :: rest => { s with env := { s.env with sched := rest } }
  | [] => { s with env := { s.env with turn := s.env.turn.other } }

/-- The word an instruction's `nbits` table bits make, as the 32 lines of `cmd_data` carry it (R70). -/
def tableWord (nbits w : Nat) : Word := BitVec.ofNat 32 (w % 2 ^ nbits)

/-- The state in which the next step is a clock edge with `rst` = 0 that accepts `c`: the block is IDLE and the host
offers it (R100, R236). -/
def offerNext (c : Word) (s : State) : State :=
  { s with
    phase := .idle
    env := { s.env with
      rstIn := false :: s.env.rstIn
      host := .offer c :: s.env.host
      sched := .clock :: s.env.sched } }

end Sys2Proof.Machine
end

