-- ==== Sys2Proof/Machine/Step.lean ====
section
/-! DEFINITION. One step of the machine (R9, R11), and how the host of the pipeline places an instruction. -/

namespace Sys2Proof.Machine

/-- One step: a rising edge of `clk`, or one move of the line encoder (R11). -/
def step (s : State) : Host.Outcome State Fault Refusal :=
  match mover s with
  | .clock => clockEdge (popMover s)
  | .lineEncoder => .next (leMove (popMover s))

/-- `s` with the instruction offered on the command port and the block ready to accept it: the block fetches nothing
(R22, R63), so this stands for the host's offer after the post-reset gap (notes/assumptions/8.md). -/
def State.withFetchWord (s : State) (nbits w : Nat) : State := offerNext (tableWord nbits w) s

end Sys2Proof.Machine
end

