-- ==== Sys2Proof/Machine/Assembler.lean ====
section
/-! DEFINITION. The assembler (R83 to R85): from a line of characters to a source line, and from a source line to
words. Nothing of the machine's step uses it. -/

namespace Sys2Proof.Machine

/-- Why the assembler stops with an error (R83, R85). -/
inductive AsmError where
  | unknownMnemonic
  | badNumber
  | wrongOperandCount
  | operandDoesNotFit
  deriving DecidableEq, Repr

/-- SETPX from the assembler's operand order idx, r, g, b to the word's field order (R84). -/
def setpxLine (idx r g b : Nat) : Word :=
  encode (.setpx (BitVec.ofNat 5 idx) (BitVec.ofNat 8 g) (BitVec.ofNat 8 r) (BitVec.ofNat 8 b))

/-- The words of a source line whose operands fit (R84, R85). -/
def asmWords : Asm → List Word
  | .nop => [encode .nop]
  | .init => [encode .init]
  | .setpx idx r g b => [setpxLine idx r g b]
  | .clear => [encode .clear]
  | .flush => [encode .flush]
  | .map x y => [encode (.map (BitVec.ofNat 8 x) (BitVec.ofNat 8 y))]
  | .digit d => [encode (.digit (BitVec.ofNat 8 d))]
  | .word v => [BitVec.ofNat 32 v]
  | .blank => [encode .clear, encode .flush]
  | .setxy x y r g b => [setpxLine (mapNat x y) r g b]

/-- Assemble one source line: an operand that does not fit its field is an error, never truncated (R83). -/
def assemble (a : Asm) : Except AsmError (List Word) :=
  if a.wf then .ok (asmWords a) else .error .operandDoesNotFit

/-- Blanks between tokens: space and tab (a DESIGN CHOICE, notes/assumptions/9.md). -/
def isBlank (c : Char) : Bool := c == ' ' || c == '\t'

/-- A line up to its comment (R83). -/
def stripComment (line : List Char) : List Char := line.takeWhile (· != ';')

/-- A token without the blanks around it. -/
def trim (cs : List Char) : List Char :=
  ((cs.dropWhile isBlank).reverse.dropWhile isBlank).reverse

/-- The parts of a list between commas (R83). -/
def splitCommas : List Char → List (List Char)
  | [] => [[]]
  | c :: cs =>
    if c == ',' then [] :: splitCommas cs
    else match splitCommas cs with
      | [] => [[c]]
      | part :: parts => (c :: part) :: parts

/-- The value of a digit of the given base (10 or 16). -/
def digitValue (base : Nat) (c : Char) : Option Nat :=
  let v :=
    if '0' ≤ c ∧ c ≤ '9' then some (c.toNat - 48)
    else if 'a' ≤ c ∧ c ≤ 'f' then some (c.toNat - 87)
    else if 'A' ≤ c ∧ c ≤ 'F' then some (c.toNat - 55)
    else none
  v.filter (· < base)

/-- The value of digits, most significant first. -/
def digitsValue (base : Nat) : List Char → Nat → Option Nat
  | [], acc => some acc
  | c :: cs, acc => (digitValue base c).bind fun v => digitsValue base cs (acc * base + v)

/-- A number, decimal or `0x` hexadecimal (R83). -/
def parseNumber : List Char → Option Nat
  | [] => none
  | ['0', 'x'] => none
  | '0' :: 'x' :: cs => digitsValue 16 cs 0
  | cs => digitsValue 10 cs 0

/-- The operands of a line: none, or numbers separated by commas (R83). -/
def parseOperands (cs : List Char) : Option (List Nat) :=
  if (trim cs).isEmpty then some [] else (splitCommas cs).mapM fun part => parseNumber (trim part)

/-- The number of operands each mnemonic takes (R83 to R85); mnemonics are upper-case. -/
def mnemonicTable : List (List Char × Nat) :=
  [ ("NOP".toList, 0), ("INIT".toList, 0), ("SETPX".toList, 4), ("CLEAR".toList, 0), ("FLUSH".toList, 0),
    ("MAP".toList, 2), ("DIGIT".toList, 1), (".word".toList, 1), ("BLANK".toList, 0), ("SETXY".toList, 5) ]

/-- The source line of the mnemonic at a place of `mnemonicTable`, with its operands (R84, R85). -/
def lineOf : Nat → List Nat → Option Asm
  | 0, [] => some .nop
  | 1, [] => some .init
  | 2, [idx, r, g, b] => some (.setpx idx r g b)
  | 3, [] => some .clear
  | 4, [] => some .flush
  | 5, [x, y] => some (.map x y)
  | 6, [d] => some (.digit d)
  | 7, [v] => some (.word v)
  | 8, [] => some .blank
  | 9, [x, y, r, g, b] => some (.setxy x y r g b)
  | _, _ => none

/-- Read one line (R83): `none` where it holds no command, only blanks or a comment. -/
def parseLine (line : List Char) : Except AsmError (Option Asm) :=
  let text := trim (stripComment line)
  if text.isEmpty then .ok none
  else
    let name := text.takeWhile fun c => !isBlank c
    match mnemonicTable.findIdx? (·.1 == name), parseOperands (text.drop name.length) with
    | none, _ => .error .unknownMnemonic
    | some _, none => .error .badNumber
    | some k, some ops =>
      match lineOf k ops with
      | some a => .ok (some a)
      | none => .error .wrongOperandCount

/-- Operands in decimal, separated by commas (R83). -/
def operandsText : List Nat → List Char
  | [] => []
  | [v] => Nat.toDigits 10 v
  | v :: vs => Nat.toDigits 10 v ++ ',' :: ' ' :: operandsText vs

/-- A source line as text, in the syntax of R83 to R85. -/
def lineText : Asm → List Char
  | .nop => "NOP".toList
  | .init => "INIT".toList
  | .setpx idx r g b => "SETPX ".toList ++ operandsText [idx, r, g, b]
  | .clear => "CLEAR".toList
  | .flush => "FLUSH".toList
  | .map x y => "MAP ".toList ++ operandsText [x, y]
  | .digit d => "DIGIT ".toList ++ operandsText [d]
  | .word v => ".word ".toList ++ operandsText [v]
  | .blank => "BLANK".toList
  | .setxy x y r g b => "SETXY ".toList ++ operandsText [x, y, r, g, b]

/-- Assemble one line of text (R83): its words, none for a line without a command. -/
def assembleLine (line : List Char) : Except AsmError (List Word) :=
  match parseLine line with
  | .error e => .error e
  | .ok none => .ok []
  | .ok (some a) => assemble a

end Sys2Proof.Machine
end

