-- ==== Sys2Proof/Safety.lean ====
section
/-! DEFINITION. The terms the claims use: the frame in progress, the invariant of the machine, frames that are whole,
the bits on the wire, and the end of a run (R136, R142, R245). -/

namespace Sys2Proof.Machine

/-- One event of the trace, read from the left: the closed frames so far and the bytes since the last LATCH. -/
def frameStep (acc : List (List Byte) × List Byte) (e : BusEvent) : List (List Byte) × List Byte :=
  match e with
  | .byte b => (acc.1, acc.2 ++ [b])
  | .latch => (acc.1 ++ [acc.2], [])

/-- The trace cut at its LATCH events. -/
def cutTrace (trace : List BusEvent) : List (List Byte) × List Byte := trace.foldl frameStep ([], [])

/-- The byte lists that a LATCH has closed, oldest first (R136). -/
def closedFrames (trace : List BusEvent) : List (List Byte) := (cutTrace trace).1

/-- The bytes handed over since the last LATCH. -/
def openFrame (trace : List BusEvent) : List Byte := (cutTrace trace).2

/-- Which command owns the frame, by phase (R28, R31): none in IDLE, one in TX and DRAIN, and only after INIT (R235). -/
def OwnerInv (s : State) : Prop :=
  (s.phase = .idle → s.curOp = .none) ∧
  (s.phase = .tx ∨ s.phase = .drain → s.curOp ≠ .none) ∧
  (s.curOp ≠ .none → s.initDone = true)

/-- GAP_CNT stays within the gap (R30). -/
def GapInv (s : State) : Prop := s.phase = .gap → s.gapCnt < gapCycles s.cfg

/-- The line encoder (R34, R139, R140): `dout` is high exactly in a bit's high time, no bit is under way when none is
left, and in GAP and IDLE nothing is being sent and the line is low. -/
def EncoderInv (s : State) : Prop :=
  (s.le.dout = true ↔ s.le.sub = .high) ∧
  (s.le.bits = 0 → s.le.sub = .start) ∧
  (s.phase = .gap ∨ s.phase = .idle → leIdle s.le = true)

/-- RESP as R25 and R201 lay it out: reserved bits zero, a code of the table, and a RESULT only for an OK MAP; and
RSP_PULSE is up only in IDLE (R205). -/
def ResponseInv (s : State) : Prop :=
  s.resp.extractLsb' 13 16 = 0#16 ∧
  s.resp.extractLsb' 4 4 = 0#4 ∧
  (respCode s.resp).toNat ≤ 5 ∧
  (respResult s.resp ≠ 0 → respOp s.resp = 0b101#3 ∧ respCode s.resp = 0#4) ∧
  (s.rspPulse = true → s.phase = .idle)

/-- The bytes since the last LATCH are the frame of the buffer as far as it has been handed over (R131, R136). -/
def FrameInv (s : State) : Prop :=
  match s.phase with
  | .idle => openFrame s.log.trace = []
  | .tx => openFrame s.log.trace = (frameBytes s.pix).take s.byteCnt.val
  | .drain => openFrame s.log.trace = frameBytes s.pix
  | .gap => s.curOp ≠ .none → openFrame s.log.trace = frameBytes s.pix

/-- The invariant of the machine. -/
def Inv (s : State) : Prop := OwnerInv s ∧ GapInv s ∧ EncoderInv s ∧ ResponseInv s ∧ FrameInv s

/-- No frame of the trace was cut (R136): every closed one has 75 bytes, but that the first may be the empty one of
the post-reset gap; and the post-reset gap comes before any event. -/
def WholeFrames (s : State) : Prop :=
  (∀ f ∈ (closedFrames s.log.trace).tail, f.length = 75) ∧
  (∀ f ∈ (closedFrames s.log.trace).head?, f = [] ∨ f.length = 75) ∧
  (s.phase = .gap → s.curOp = .none → s.log.trace = [])

/-- The bits of a byte in the order of the line: bit 7 first (R53). -/
def msbFirst (b : Byte) : List Bool := (List.finRange 8).map fun k => b.getLsbD (7 - k.val)

/-- What the line has carried, and what the line encoder still holds, as bits in line order (R139). -/
def wireBits (s : State) : List Bool :=
  s.log.line.map (·.bit) ++ (msbFirst s.le.shift).take s.le.bits.val ++
    (if s.le.holdFull then msbFirst s.le.hold else [])

/-- The next step is a clock edge with `rst` = 0. -/
def edgeNext (s : State) : Prop := mover s = .clock ∧ rstLevel s = false

/-- The ACCEPT step is next (R100): a clock edge with `rst` = 0, PHASE = IDLE, and the host offering `c`. -/
def acceptNext (c : Word) (s : State) : Prop := edgeNext s ∧ s.phase = .idle ∧ offered s = some c

/-- What `step` does around the command it accepts: the mover and the level of `rst` are used up, RSP_PULSE falls
unless the command responds, and the host's act is over. The block's other state is as before. -/
def atAcceptance (s : State) : State := popHost (dropPulse (popRst (popMover s)))

/-- A run is over: the host has no command left to offer and the block is quiescent (R245). Pauses, reads and ignored
writes may be left. -/
def runOver (s : State) : Bool := !commandLeft s && quiescent s

/-- The observable result of a run (R245). -/
def observed (s : State) : Vector Pixel 25 × Bool × Word × List BusEvent :=
  (s.pix, s.initDone, s.resp, s.log.trace)

end Sys2Proof.Machine
end

