-- ==== Sys2Proof/Certificates/Slice0/Obligations.lean ====
section
/-! DEFINITION. The statements for the provers. Each docstring names the rule of spec/ it formalises, or what it
derives and from where. -/

open Sys2Proof Sys2Proof.Machine

/- ## Encoding -/

/-- One word of every command, written out from the formats of R72 to R75, decodes to the command it stands for. -/
def Obligations.SampleWordsDecode : Prop :=
  decode 0b00000000000000000000000000000000#32 = .ok .nop ∧
  decode 0b00100000000000000000000000000000#32 = .ok .init ∧
  decode 0b01000000000001110000001100001001#32 = .ok (.setpx 0 7 3 9) ∧
  decode 0b01100000000000000000000000000000#32 = .ok .clear ∧
  decode 0b10000000000000000000000000000000#32 = .ok .flush ∧
  decode 0b10100000000000000000010000000001#32 = .ok (.map 4 1) ∧
  decode 0b11000000000000000000000000001001#32 = .ok (.digit 9)

/-- Every command, with every operand at every value its field admits, is read back from its word (R72 to R76). -/
def Obligations.DecodeOfEncodeIsSame : Prop :=
  ∀ i : Instr, i.wf = true → decode (encode i) = .ok i

/-- Every legal word is the word of the command it decodes to: no bit of a legal word is dropped (R72 to R78). -/
def Obligations.EncodeOfDecodeIsSame : Prop :=
  ∀ (c : Word) (i : Instr), decode c = .ok i → encode i = c

/-- A word selects a row of the match and mask table exactly when it decodes to that row's command (R77). -/
def Obligations.MaskTableSelectsDecodedCommand : Prop :=
  ∀ (c : Word), ∀ row ∈ opRows,
    (row.selects c = true ↔ ∃ i : Instr, decode c = .ok i ∧ i.mnemonic = row.mnemonic)

/-- R78: which words are illegal, that they are exactly those no row matches, and that an illegal word is accepted
like any command and completes at once with ILLEGAL_COMMAND and no other effect. -/
def Obligations.IllegalWordsCompleteWithoutEffect : Prop :=
  ∀ c : Word,
    ((∃ e, decode c = .error e) ↔
      opField c = 0b111#3 ∨
      (opField c ∈ [0b000#3, 0b001#3, 0b011#3, 0b100#3] ∧ c.extractLsb' 0 29 ≠ 0) ∨
      (opField c = 0b101#3 ∧ c.extractLsb' 16 13 ≠ 0) ∨
      (opField c = 0b110#3 ∧ c.extractLsb' 8 21 ≠ 0)) ∧
    ((∃ e, decode c = .error e) ↔ ∀ row ∈ opRows, row.selects c = false) ∧
    (∀ s : State, (∃ e, decode c = .error e) → acceptNext c s →
      step s = .next { atAcceptance s with
        resp := respWord (opField c) .illegalCommand 0, rspPulse := true })

/- ## A step and the command it runs -/

/-- When the host offers the word of a command at a clock edge in IDLE, the step is `exec` of that command, at the
state in which the host's act is over and the old response pulse has fallen (R100). -/
def Obligations.StepRunsDecodedCommand : Prop :=
  ∀ (s : State) (c : Word) (i : Instr),
    acceptNext c s → decode c = .ok i → i.wf = true → step s = exec i (atAcceptance s)

/-- R82: acceptance raises exactly the code that the classification of R82 returns, and where that is OK it performs
the command's rule. -/
def Obligations.AcceptFollowsClassification : Prop :=
  ∀ (c : Word) (s : State),
    (∀ code, classify c s.initDone = some code →
      accept c s = .next { s with resp := respWord (opField c) code 0, rspPulse := true }) ∧
    (classify c s.initDone = none → ∃ i : Instr, decode c = .ok i ∧ encode i = c ∧ accept c s = exec i s)

/-- R203: a word that completes with an error code writes no pixel, leaves INIT_DONE, sends nothing, and does not
leave IDLE; only the response is written, with the word's OP, RESULT 0 and the code. -/
def Obligations.ErrorsHaveNoSideEffect : Prop :=
  ∀ (s : State) (c : Word) (code : Code), acceptNext c s → classify c s.initDone = some code →
    ∃ t, step s = .next t ∧
      t.resp = opField c ++ 0#16 ++ 0#5 ++ 0#4 ++ code.toBits ∧ t.rspPulse = true ∧
      t.pix = s.pix ∧ t.initDone = s.initDone ∧ t.phase = .idle ∧ t.curOp = s.curOp ∧
      t.byteCnt = s.byteCnt ∧ t.gapCnt = s.gapCnt ∧ t.le = s.le ∧ t.log = s.log ∧ t.cfg = s.cfg

/-- No step refuses, and a step faults only where the machine is stuck on a register-map access that is not admitted,
with the block quiescent and no reset coming (R200: the block has no traps; R54). That the stuck machine answers a
fault is the model's choice (log 7). -/
def Obligations.StepStopsOnlyWhenStuck : Prop :=
  ∀ s : State, (∃ t, step s = .next t) ∨
    (mover s = .clock ∧ rstLevel s = false ∧ hostStuck s = true ∧ s.phase = .idle ∧ s.rspPulse = false ∧
      s.env.rstIn.tail = [] ∧ step s = .fault .accessNotAdmitted)

/- ## The commands -/

/-- NOP completes from every state: RESP = 0x00000000 and the pulse, nothing else (R101). -/
def Obligations.NopOnlyResponds : Prop :=
  ∀ s : State, exec .nop s = .next { s with resp := 0x00000000#32, rspPulse := true }

/-- INIT before any INIT zeroes the buffer and sets INIT_DONE (R102). -/
def Obligations.FirstInitClaimsAndZeroes : Prop :=
  ∀ s : State, s.initDone = false →
    exec .init s = .next { s with
      pix := Vector.replicate 25 0x000000#24, initDone := true, resp := 0x20000000#32, rspPulse := true }

/-- A second INIT completes with RESOURCE_UNAVAILABLE and changes nothing but the response (R102, R202). -/
def Obligations.SecondInitIsUnavailable : Prop :=
  ∀ s : State, s.initDone = true →
    exec .init s = .next { s with resp := 0x20000003#32, rspPulse := true }

/-- SETPX with IDX at most 24 writes the word {G, R, B} at that index (R103). -/
def Obligations.SetpxWritesOnePixel : Prop :=
  ∀ (idx : BitVec 5) (g r b : Byte) (s : State) (h : idx.toNat < 25), s.initDone = true →
    exec (.setpx idx g r b) s = .next { s with
      pix := s.pix.set idx.toNat (g ++ r ++ b) h, resp := 0x40000000#32, rspPulse := true }

/-- SETPX with IDX of 25 or more completes with OUT_OF_RANGE and writes no pixel (R103, R202). -/
def Obligations.SetpxOutOfRangeWritesNothing : Prop :=
  ∀ (idx : BitVec 5) (g r b : Byte) (s : State), 25 ≤ idx.toNat → s.initDone = true →
    exec (.setpx idx g r b) s = .next { s with resp := 0x40000001#32, rspPulse := true }

/-- CLEAR zeroes the buffer and sends nothing (R104). -/
def Obligations.ClearZeroesTheBuffer : Prop :=
  ∀ s : State, s.initDone = true →
    exec .clear s = .next { s with
      pix := Vector.replicate 25 0x000000#24, resp := 0x60000000#32, rspPulse := true }

/-- R105: two CLEARs leave PIX, INIT_DONE and RESP exactly as one does, and after one every pixel is (0,0,0). -/
def Obligations.ClearIsIdempotent : Prop :=
  ∀ s : State, s.initDone = true →
    ∃ t u, exec .clear s = .next t ∧ exec .clear t = .next u ∧
      u.pix = t.pix ∧ u.initDone = t.initDone ∧ u.resp = t.resp ∧
      ∀ i : Fin 25, green t.pix[i] = 0 ∧ red t.pix[i] = 0 ∧ blue t.pix[i] = 0

/-- FLUSH enters TX at byte 0 and owns the frame; it does not respond yet (R130). -/
def Obligations.FlushStartsTheFrame : Prop :=
  ∀ s : State, s.initDone = true →
    exec .flush s = .next { s with curOp := .flush, byteCnt := 0, phase := .tx }

/-- MAP of a cell of the grid answers the serpentine formula of R161 in RESP.RESULT and changes nothing else (R160). -/
def Obligations.MapAnswersSerpentineIndex : Prop :=
  ∀ (x y : Byte) (s : State), x.toNat ≤ 4 → y.toNat ≤ 4 → s.initDone = true →
    exec (.map x y) s = .next { s with
      resp := 0b101#3 ++ 0#16 ++
        BitVec.ofNat 5 (if y.toNat % 2 = 0 then 24 - (y.toNat * 5 + x.toNat)
          else 24 - (y.toNat * 5 + (4 - x.toNat))) ++ 0#4 ++ 0#4
      rspPulse := true }

/-- MAP of a coordinate outside the grid completes with OUT_OF_RANGE; nothing is reduced or clamped (R160, R202). -/
def Obligations.MapOutsideTheGridFails : Prop :=
  ∀ (x y : Byte) (s : State), (5 ≤ x.toNat ∨ 5 ≤ y.toNat) → s.initDone = true →
    exec (.map x y) s = .next { s with resp := 0xA0000001#32, rspPulse := true }

/-- DIGIT leaves RENDER(d) in the buffer, cell by cell through the inverse of the map, and starts the frame; so the
clear and the 25 conditional writes of R184 compute the render function of R183. -/
def Obligations.DigitRendersGlyphAndStartsFrame : Prop :=
  ∀ (d : Byte) (s : State) (h : d.toNat < 10), s.initDone = true →
    exec (.digit d) s = .next { s with
      pix := Vector.ofFn fun i : Fin 25 =>
        if (glyphRom s.cfg ⟨d.toNat, h⟩).getLsbD (5 * (mapInverse i).2.val + (mapInverse i).1.val)
        then 0x323232#24 else 0x000000#24
      curOp := .digit, byteCnt := 0, phase := .tx }

/-- DIGIT of 10 or more completes with INVALID_DIGIT before it clears anything (R184, R202). -/
def Obligations.InvalidDigitChangesNothing : Prop :=
  ∀ (d : Byte) (s : State), 10 ≤ d.toNat → s.initDone = true →
    exec (.digit d) s = .next { s with resp := 0xC0000002#32, rspPulse := true }

/-- Before INIT every command but NOP and INIT completes with NOT_INITIALIZED, whatever its operands (R202). -/
def Obligations.CommandsBeforeInitAreRefused : Prop :=
  ∀ (i : Instr) (s : State), s.initDone = false → i ≠ .nop → i ≠ .init →
    exec i s = .next { s with resp := i.op ++ 0#16 ++ 0#5 ++ 0#4 ++ 4#4, rspPulse := true }

/-- R185: after a DIGIT d that completes with OK, the non-zero words stand exactly at the images of the lit cells. -/
def Obligations.GlyphRoundTrip : Prop :=
  ∀ (d : Byte) (s : State) (h : d.toNat < 10), s.initDone = true →
    ∃ t, exec (.digit d) s = .next t ∧ ∀ i : Fin 25,
      (t.pix[i] ≠ 0x000000#24 ↔
        ∃ x y : Fin 5, lit (glyphRom s.cfg ⟨d.toNat, h⟩) x y = true ∧ i = mapIndex x y)

/-- R186: DIGIT 0 lights exactly the 16 indices of the list and leaves the other nine dark. -/
def Obligations.DigitZeroLightsSixteenPixels : Prop :=
  ∀ s : State, s.initDone = true →
    ∃ t, exec (.digit 0) s = .next t ∧ ∀ i : Fin 25,
      t.pix[i] = if i ∈ [0, 1, 2, 3, 4, 5, 9, 10, 14, 15, 19, 20, 21, 22, 23, 24]
        then 0x323232#24 else 0x000000#24

/-- R162: the table of M, row by row, and that M is a bijection from the cells to the physical indices. -/
def Obligations.SerpentineMapTable : Prop :=
  (List.finRange 5).map (fun y => (List.finRange 5).map fun x => (mapIndex x y).val) =
    [[24, 23, 22, 21, 20], [15, 16, 17, 18, 19], [14, 13, 12, 11, 10], [5, 6, 7, 8, 9], [4, 3, 2, 1, 0]] ∧
  Function.Bijective (fun cell : Fin 5 × Fin 5 => mapIndex cell.1 cell.2)

/-- The closed form of R163 is the inverse of M on both sides. -/
def Obligations.SerpentineMapInverse : Prop :=
  (∀ i : Fin 25, mapIndex (mapInverse i).1 (mapInverse i).2 = i) ∧
  (∀ x y : Fin 5, mapInverse (mapIndex x y) = (x, y))

/- ## Frames: what a command leaves unchanged -/

/-- NOP and MAP, in every form: only RESP and the pulse change (R101, R160). -/
def Obligations.NopAndMapFrame : Prop :=
  ∀ (i : Instr) (s t : State), (i = .nop ∨ ∃ x y, i = .map x y) → exec i s = .next t →
    t.rspPulse = true ∧ t.cfg = s.cfg ∧ t.pix = s.pix ∧ t.initDone = s.initDone ∧ t.phase = s.phase ∧
    t.byteCnt = s.byteCnt ∧ t.gapCnt = s.gapCnt ∧ t.curOp = s.curOp ∧ t.le = s.le ∧ t.env = s.env ∧
    t.log = s.log

/-- INIT, SETPX and CLEAR, in every form: they do not leave IDLE, touch neither the line encoder nor the trace, only
INIT may change INIT_DONE, SETPX changes no pixel but the one its IDX names, and a form that ends with an error changes
neither the buffer nor INIT_DONE (R102 to R104). -/
def Obligations.BufferCommandsFrame : Prop :=
  ∀ (i : Instr) (s t : State),
    (i = .init ∨ (∃ idx g r b, i = .setpx idx g r b) ∨ i = .clear) → exec i s = .next t →
    (t.rspPulse = true ∧ t.cfg = s.cfg ∧ t.phase = s.phase ∧ t.byteCnt = s.byteCnt ∧ t.gapCnt = s.gapCnt ∧
      t.curOp = s.curOp ∧ t.le = s.le ∧ t.env = s.env ∧ t.log = s.log) ∧
    (i ≠ .init → t.initDone = s.initDone) ∧
    (∀ idx g r b, i = .setpx idx g r b → ∀ j : Fin 25, j.val ≠ idx.toNat → t.pix[j] = s.pix[j]) ∧
    (respCode t.resp ≠ 0#4 → t.pix = s.pix ∧ t.initDone = s.initDone)

/-- FLUSH and DIGIT, in every form: INIT_DONE, the gap counter, the line encoder and the trace are unchanged, FLUSH
changes no pixel, and RESP changes only where the command ends at once with an error (R130, R184). -/
def Obligations.FrameCommandsFrame : Prop :=
  ∀ (i : Instr) (s t : State), (i = .flush ∨ ∃ d, i = .digit d) → exec i s = .next t →
    (t.cfg = s.cfg ∧ t.initDone = s.initDone ∧ t.gapCnt = s.gapCnt ∧ t.le = s.le ∧ t.env = s.env ∧
      t.log = s.log) ∧
    (i = .flush → t.pix = s.pix) ∧
    ((t.phase = .tx ∧ t.byteCnt = 0 ∧ t.curOp ≠ .none ∧ t.resp = s.resp ∧ t.rspPulse = s.rspPulse) ∨
      (t.phase = s.phase ∧ t.byteCnt = s.byteCnt ∧ t.curOp = s.curOp ∧ t.pix = s.pix ∧
        respCode t.resp ≠ 0#4 ∧ t.rspPulse = true))

/- ## The sequencer -/

/-- R131: a frame is 75 bytes, and bytes 3i, 3i+1, 3i+2 are green, red, blue of pixel i. -/
def Obligations.FrameIsGreenRedBlueByPixel : Prop :=
  ∀ p : Vector Pixel 25, (frameBytes p).length = 75 ∧
    ∀ i : Fin 25,
      (frameBytes p)[3 * i.val]? = some (p[i].extractLsb' 16 8) ∧
      (frameBytes p)[3 * i.val + 1]? = some (p[i].extractLsb' 8 8) ∧
      (frameBytes p)[3 * i.val + 2]? = some (p[i].extractLsb' 0 8)

/-- An edge in TX: with the holding register empty it hands over FRAME_BYTE(BYTE_CNT) and goes on to the next byte or
to DRAIN; with it full it changes neither byte counter, phase, encoder nor trace (R132). -/
def Obligations.TxEdgeEmitsNextByte : Prop :=
  ∀ s : State, edgeNext s → s.phase = .tx →
    ∃ t, step s = .next t ∧ t.pix = s.pix ∧ t.initDone = s.initDone ∧ t.resp = s.resp ∧
      t.rspPulse = false ∧ t.curOp = s.curOp ∧
      (s.le.holdFull = false →
        t.le = { s.le with hold := frameByte s.pix s.byteCnt, holdFull := true } ∧
        t.log.trace = s.log.trace ++ [.byte (frameByte s.pix s.byteCnt)] ∧
        (s.byteCnt.val = 74 → t.phase = .drain ∧ t.byteCnt = s.byteCnt) ∧
        (s.byteCnt.val ≠ 74 → t.phase = .tx ∧ t.byteCnt.val = s.byteCnt.val + 1)) ∧
      (s.le.holdFull = true → t.le = s.le ∧ t.log.trace = s.log.trace ∧ t.phase = .tx ∧ t.byteCnt = s.byteCnt)

/-- R133: an edge in DRAIN enters GAP at count 0 when the line encoder is idle, and waits otherwise. -/
def Obligations.DrainEdgeWaitsForIdleLine : Prop :=
  ∀ s : State, edgeNext s → s.phase = .drain →
    ∃ t, step s = .next t ∧ t.pix = s.pix ∧ t.initDone = s.initDone ∧ t.resp = s.resp ∧
      t.curOp = s.curOp ∧ t.le = s.le ∧ t.log.trace = s.log.trace ∧
      ((s.le.holdFull = false ∧ s.le.bits = 0) → t.phase = .gap ∧ t.gapCnt = 0) ∧
      (¬(s.le.holdFull = false ∧ s.le.bits = 0) → t.phase = .drain ∧ t.gapCnt = s.gapCnt)

/-- R134: an edge in GAP below GAP_CYCLES - 1 counts one up and stays in GAP; `dout` stays as it was, and under the
invariant it is low. -/
def Obligations.GapEdgeTicks : Prop :=
  ∀ s : State, edgeNext s → s.phase = .gap → s.gapCnt < gapCycles s.cfg - 1 →
    ∃ t, step s = .next t ∧ t.gapCnt = s.gapCnt + 1 ∧ t.phase = .gap ∧ t.curOp = s.curOp ∧
      t.le = s.le ∧ t.log.trace = s.log.trace ∧ t.resp = s.resp ∧ t.pix = s.pix ∧ t.initDone = s.initDone ∧
      (Inv s → t.le.dout = false)

/-- R135: the edge in GAP at GAP_CYCLES - 1 appends LATCH, enters IDLE, writes the owner's response (none after the
post-reset gap) and clears CUR_OP. -/
def Obligations.GapEndLatchesAndResponds : Prop :=
  ∀ s : State, edgeNext s → s.phase = .gap → s.gapCnt = gapCycles s.cfg - 1 →
    ∃ t, step s = .next t ∧ t.log.trace = s.log.trace ++ [.latch] ∧ t.phase = .idle ∧
      cmdReady t = true ∧ t.curOp = .none ∧ t.pix = s.pix ∧ t.initDone = s.initDone ∧ t.le = s.le ∧
      (s.curOp = .flush → t.resp = 0x80000000#32 ∧ t.rspPulse = true) ∧
      (s.curOp = .digit → t.resp = 0xC0000000#32 ∧ t.rspPulse = true) ∧
      (s.curOp = .none → t.resp = s.resp ∧ t.rspPulse = false)

/-- A command offered while the block is busy, on the port or by a write to CMD, is neither lost nor accepted: after
any step the same offer still stands, and the write is still stalled (R236, R57). -/
def Obligations.OfferWaitsWhileBusy : Prop :=
  ∀ (s t : State) (act : HostAct) (c : Word) (rest : List HostAct), s.phase ≠ .idle → s.env.host = act :: rest →
    (act = .offer c ∨ ∃ base, s.cfg.base = some base ∧ act = .store base 4 c) →
    step s = .next t → t.env.host = act :: rest ∧ offered t = some c

/-- R106: apart from reset, the buffer changes only in a step that accepts INIT, SETPX, CLEAR or DIGIT, and only when
the word completes without an error code. -/
def Obligations.PixChangesOnlyByCommands : Prop :=
  ∀ s t : State, step s = .next t → t.pix ≠ s.pix →
    mover s = .clock ∧ (rstLevel s = true ∨
      ∃ (c : Word) (i : Instr), acceptNext c s ∧ decode c = .ok i ∧ classify c s.initDone = none ∧
        (i = .init ∨ (∃ idx g r b, i = .setpx idx g r b) ∨ i = .clear ∨ ∃ d, i = .digit d))

/-- R24 and R28, as rules of the whole machine: INIT_DONE is set only in a step that accepts INIT before any INIT, and
cleared only by reset; the block leaves IDLE only by reset or in a step that accepts FLUSH or DIGIT without an error code;
and an edge in IDLE at which nothing is offered, with commands still to come or not, leaves the block as it is, but for the
response pulse, which falls. -/
def Obligations.InitDoneAndIdleChangeOnlyByCommandsOrReset : Prop :=
  ∀ s t : State, step s = .next t →
    (t.initDone ≠ s.initDone → mover s = .clock ∧
      ((rstLevel s = true ∧ t.initDone = false) ∨
        ∃ c, acceptNext c s ∧ decode c = .ok .init ∧ s.initDone = false ∧ t.initDone = true ∧
          respCode t.resp = 0#4)) ∧
    (s.phase = .idle → t.phase ≠ .idle → mover s = .clock ∧
      ((rstLevel s = true ∧ t.phase = .gap) ∨
        ∃ (c : Word) (i : Instr), acceptNext c s ∧ decode c = .ok i ∧ classify c s.initDone = none ∧
          (i = .flush ∨ ∃ d, i = .digit d) ∧ t.phase = .tx)) ∧
    (edgeNext s → s.phase = .idle → offered s = none →
      t.pix = s.pix ∧ t.initDone = s.initDone ∧ t.resp = s.resp ∧ t.rspPulse = false ∧ t.phase = .idle ∧
      t.byteCnt = s.byteCnt ∧ t.gapCnt = s.gapCnt ∧ t.curOp = s.curOp ∧ t.le = s.le ∧ t.cfg = s.cfg ∧
      t.log.trace = s.log.trace ∧ t.log.line = s.log.line)

/-- `rsp_valid` is up after a clock edge exactly where that edge accepted a command that completed at once (the block is
still in IDLE) or ended a FLUSH's or DIGIT's gap, and no move of the line encoder between two edges changes it, so it
lasts one cycle; a FLUSH or DIGIT that starts its frame does not
respond at its acceptance. RESP changes only with the pulse or by reset (R205). -/
def Obligations.ResponsePulseLastsOneCycle : Prop :=
  ∀ s t : State, step s = .next t →
    (mover s = .clock → (t.rspPulse = true ↔ rstLevel s = false ∧
      ((s.phase = .idle ∧ (offered s).isSome = true ∧ t.phase = .idle) ∨
        (s.phase = .gap ∧ s.gapCnt = gapCycles s.cfg - 1 ∧ s.curOp ≠ .none)))) ∧
    (mover s = .lineEncoder → t.rspPulse = s.rspPulse) ∧
    (t.resp ≠ s.resp → mover s = .clock ∧ (t.rspPulse = true ∨ rstLevel s = true))

/- ## The line encoder -/

/-- The moves of R139, cut into rise, fall and end of the bit period: an idle encoder takes a held byte; a bit rises,
falls after its high time, and at the end of its period shifts the byte left, most significant bit first, and loads a
held byte without a pause after the last. Nothing outside the line encoder and its record changes. The cut is the model's choice (log 5), and so are the record of the finished
bit periods and its low rest, 1250 ns minus the high time and 0 where T0H or T1H exceeds T_BIT (log 6). -/
def Obligations.LineEncoderSendsMsbFirst : Prop :=
  ∀ s : State, mover s = .lineEncoder →
    ∃ t, step s = .next t ∧
      (t.pix = s.pix ∧ t.initDone = s.initDone ∧ t.resp = s.resp ∧ t.rspPulse = s.rspPulse ∧ t.phase = s.phase ∧
        t.byteCnt = s.byteCnt ∧ t.gapCnt = s.gapCnt ∧ t.curOp = s.curOp ∧ t.cfg = s.cfg ∧
        t.env.host = s.env.host ∧ t.env.rstIn = s.env.rstIn ∧ t.log.trace = s.log.trace ∧
        t.log.reads = s.log.reads) ∧
      (s.le.sub = .start → s.le.bits = 0 → s.le.holdFull = true →
        t.le = { s.le with shift := s.le.hold, holdFull := false, bits := 8 } ∧ t.log = s.log) ∧
      (s.le.sub = .start → s.le.bits = 0 → s.le.holdFull = false → t.le = s.le ∧ t.log = s.log) ∧
      (s.le.sub = .start → s.le.bits ≠ 0 →
        t.le = { s.le with dout := true, sub := .high } ∧ t.log = s.log) ∧
      (s.le.sub = .high → t.le = { s.le with dout := false, sub := .low } ∧ t.log = s.log) ∧
      (s.le.sub = .low →
        t.log.line = s.log.line ++ [⟨s.le.shift.getLsbD 7,
          if s.le.shift.getLsbD 7 then s.cfg.t1h else s.cfg.t0h,
          1250 - (if s.le.shift.getLsbD 7 then s.cfg.t1h else s.cfg.t0h)⟩] ∧
        (1 < s.le.bits.val → t.le.shift = s.le.shift <<< 1 ∧ t.le.bits.val = s.le.bits.val - 1 ∧
          t.le.hold = s.le.hold ∧ t.le.holdFull = s.le.holdFull ∧ t.le.sub = .start) ∧
        (s.le.bits.val = 1 → s.le.holdFull = false → t.le.bits = 0 ∧ t.le.holdFull = false ∧ t.le.sub = .start) ∧
        (s.le.bits.val = 1 → s.le.holdFull = true →
          t.le.shift = s.le.hold ∧ t.le.holdFull = false ∧ t.le.bits = 8 ∧ t.le.sub = .start))

/-- Nothing is lost, repeated or reordered between the trace and the wire: a line-encoder move keeps the bits carried
plus held, and an edge without reset adds exactly the eight bits, bit 7 first, of the byte it hands over (R139, R53). The
record of the line is the model's (log 6). -/
def Obligations.WireCarriesHandedOverBytes : Prop :=
  ∀ s t : State, Inv s → step s = .next t →
    (mover s = .lineEncoder → wireBits t = wireBits s ∧ t.log.trace = s.log.trace) ∧
    (edgeNext s →
      (∃ b, t.log.trace = s.log.trace ++ [.byte b] ∧ wireBits t = wireBits s ++ msbFirst b) ∨
      ((t.log.trace = s.log.trace ∨ t.log.trace = s.log.trace ++ [.latch]) ∧ wireBits t = wireBits s))

/-- R141: with F_CLK above 100 kHz the line encoder never runs out of bits while the sequencer is in TX; only a reset
empties it then. The model takes it from R141 by letting the refilling edge come first (log 3). -/
def Obligations.NoUnderrunInTx : Prop :=
  ∀ s t : State, step s = .next t → s.phase = .tx → 100000 < s.cfg.fClk → s.le.bits ≠ 0 →
    t.le.bits = 0 → mover s = .clock ∧ rstLevel s = true

/- ## Reset and invariants -/

/-- R36: the state after reset. PIX, LE_HOLD and LE_SHIFT are unspecified and nothing is said of them. -/
def Obligations.ResetStateValues : Prop :=
  State.reset.initDone = false ∧ State.reset.resp = 0x00000000#32 ∧ State.reset.rspPulse = false ∧
  State.reset.phase = .gap ∧ State.reset.byteCnt = 0 ∧ State.reset.gapCnt = 0 ∧
  State.reset.curOp = .none ∧ State.reset.le.holdFull = false ∧ State.reset.le.bits = 0 ∧
  State.reset.le.dout = false ∧ cmdReady State.reset = false ∧ statusWord State.reset = 0x0000000E#32 ∧
  glyphRom State.reset.cfg 0 = 0x1F8C63F#25 ∧ glyphColor = 0x323232#24

/-- R230: an edge with `rst` = 1 puts every piece of state at its reset value, whatever the phase, and takes no other
step: nothing is accepted, handed over or latched. That the host makes no move at that edge, a pause or a bus access
included, is the model's choice (log 4), and so is that the record of the line and of the values read goes on over it
(log 6). The trace stays too, but that a frame cut in DRAIN loses BYTE events at its end (R244, log 12). -/
def Obligations.ResetEdgeWins : Prop :=
  ∀ s : State, mover s = .clock → rstLevel s = true →
    ∃ t, step s = .next t ∧ t.initDone = false ∧ t.resp = 0x00000000#32 ∧ t.rspPulse = false ∧
      t.phase = .gap ∧ t.byteCnt = 0 ∧ t.gapCnt = 0 ∧ t.curOp = .none ∧ t.le.holdFull = false ∧
      t.le.bits = 0 ∧ t.le.dout = false ∧ t.cfg = s.cfg ∧ t.env.host = s.env.host ∧
      t.log.line = s.log.line ∧ t.log.reads = s.log.reads ∧
      (s.phase ≠ .drain → t.log.trace = s.log.trace) ∧
      (s.phase = .drain → ∃ n : Fin 75, t.log.trace = withoutLastBytes (75 - n.val) s.log.trace)

/-- R244: a reset in TX or DRAIN leaves a BYTE list shorter than 75, followed by LATCH. After the reset edge and the
GAP_CYCLES edges of the post-reset gap (R232), with any moves of the line encoder between them (log 3), the trace has one
more closed frame than before: the first `n` bytes of the buffer's frame, `n` below 75, and in TX the BYTE_CNT bytes handed
over; the block is in IDLE without a response. That the DRAIN case follows R244 and not R142, and that what stays is the
frame's beginning, is the model's choice (log 12). -/
def Obligations.ResetInFrameLeavesShortByteList : Prop :=
  ∀ (s : State) (moves later : List Mover), Inv s → s.phase = .tx ∨ s.phase = .drain → s.env.rstIn = [true] →
    moves.count .clock + 1 = gapCycles s.cfg → s.env.sched = .clock :: moves ++ .clock :: later →
    ∃ (t : State) (n : Nat), core.run (moves.length + 2) s = .next t ∧ n < 75 ∧
      (s.phase = .tx → n = s.byteCnt.val) ∧
      closedFrames t.log.trace = closedFrames s.log.trace ++ [(frameBytes s.pix).take n] ∧
      openFrame t.log.trace = [] ∧ t.phase = .idle ∧ t.resp = 0x00000000#32 ∧ t.rspPulse = false

/-- The invariant holds in the reset state. -/
def Obligations.ResetMeetsTheInvariant : Prop := Inv State.reset ∧ WholeFrames State.reset

/-- Every step keeps the invariant, a reset at any point included. -/
def Obligations.StepKeepsTheInvariant : Prop :=
  ∀ s t : State, Inv s → step s = .next t → Inv t

/-- R136, its values: a LATCH that ends a FLUSH's or DIGIT's gap closes exactly the 75 bytes of the buffer. -/
def Obligations.LatchClosesTheFrameOfTheBuffer : Prop :=
  ∀ s t : State, Inv s → step s = .next t → s.curOp ≠ .none →
    t.log.trace = s.log.trace ++ [.latch] →
    closedFrames t.log.trace = closedFrames s.log.trace ++ [frameBytes s.pix] ∧ openFrame t.log.trace = [] ∧
      t.pix = s.pix

/-- R136, its count: while no reset strikes, between two LATCH events there are always 75 bytes. -/
def Obligations.StepKeepsWholeFrames : Prop :=
  ∀ s t : State, Inv s → WholeFrames s → rstLevel s = false → step s = .next t → WholeFrames t

/-- R235: before INIT the buffer is not observable. Two states that meet the invariant and differ only in PIX take the
same step, with the same observations, and once INIT is done they are equal. At an edge with `rst` = 1 this says that
both runs draw the same LE_HOLD and LE_SHIFT, which R36 leaves unspecified: that is the model's choice, one free value
for each draw (log 1). -/
def Obligations.BufferBeforeInitIsUnobservable : Prop :=
  ∀ (s t : State) (p : Vector Pixel 25), Inv s → s.initDone = false → step s = .next t →
    ∃ t', step { s with pix := p } = .next t' ∧ t' = { t with pix := t'.pix } ∧ (t.initDone = true → t' = t)

/-- R32, R33: no step writes the glyph ROM or any other parameter. -/
def Obligations.StepKeepsTheParameters : Prop :=
  ∀ s t : State, step s = .next t → t.cfg = s.cfg ∧ ∀ d : Fin 10, glyphRom t.cfg d = glyphRom s.cfg d

/- ## Registers and host -/

/-- R26: the STATUS word, field by field, and its value right after reset. -/
def Obligations.StatusWordFields : Prop :=
  statusWord State.reset = 0x0000000E#32 ∧ ∀ s : State,
    (statusWord s).getLsbD 0 = s.initDone ∧
    ((statusWord s).getLsbD 1 = true ↔ s.phase ≠ .idle) ∧
    (statusWord s).getLsbD 1 = !cmdReady s ∧
    (statusWord s).extractLsb' 2 2 =
      (match s.phase with | .idle => 0#2 | .tx => 1#2 | .drain => 2#2 | .gap => 3#2) ∧
    (statusWord s).extractLsb' 4 28 = 0#28

/-- The register map of R57 at a clock edge: a 32-bit read of CMD, RESP or STATUS returns 0, RESP or STATUS to the host,
a write of RESP or STATUS is ignored, neither changes a register of an idle block, and a write of CMD is accepted in
IDLE as the same word offered on the port and stalls outside it. That a read or an ignored write is over at that one
edge, with the values before it, is the model's choice (log 4: the spec does not time it), and so is the list in which
the values read stand (log 6). -/
def Obligations.RegisterMapAccesses : Prop :=
  ∀ (s : State) (base : Nat) (act : HostAct) (rest : List HostAct), edgeNext s → s.cfg.base = some base →
    s.env.host = act :: rest →
    (∀ v, (act = .load base 4 ∧ v = 0x00000000#32) ∨ (act = .load (base + 4) 4 ∧ v = s.resp) ∨
        (act = .load (base + 8) 4 ∧ v = statusWord s) →
      ∃ t, step s = .next t ∧ t.log.reads = s.log.reads ++ [v] ∧ t.env.host = rest ∧
        (s.phase = .idle → t.pix = s.pix ∧ t.initDone = s.initDone ∧ t.resp = s.resp ∧ t.phase = .idle)) ∧
    (∀ v, act = .store (base + 4) 4 v ∨ act = .store (base + 8) 4 v →
      ∃ t, step s = .next t ∧ t.log.reads = s.log.reads ∧ t.env.host = rest ∧
        (s.phase = .idle → t.pix = s.pix ∧ t.initDone = s.initDone ∧ t.resp = s.resp ∧ t.phase = .idle)) ∧
    (∀ v, act = .store base 4 v →
      (s.phase = .idle → step s = accept v (atAcceptance s)) ∧
      (s.phase ≠ .idle → ∃ t, step s = .next t ∧ t.log.reads = s.log.reads ∧ t.env.host = act :: rest))

/-- R54: an access of another width, or at another address than the three, has no step for the host: after a step
that goes on, the host still stands at it, and nothing was read. -/
def Obligations.UnadmittedAccessHasNoStep : Prop :=
  ∀ (s t : State) (base addr size : Nat) (rest : List HostAct), s.cfg.base = some base →
    (size ≠ 4 ∨ (addr ≠ base ∧ addr ≠ base + 4 ∧ addr ≠ base + 8)) →
    (s.env.host = .load addr size :: rest ∨ ∃ v, s.env.host = .store addr size v :: rest) →
    step s = .next t → t.env.host = s.env.host ∧ t.log.reads = s.log.reads ∧ offered t = none

/-- The assembler places SETPX's operands idx, r, g, b in the word's order, and the word decodes to the command with
those operands; an operand that does not fit is an error (R83, R84). -/
def Obligations.AssembledSetpxDecodes : Prop :=
  ∀ idx r g b : Nat,
    (idx < 32 → r < 256 → g < 256 → b < 256 →
      ∃ w, assemble (.setpx idx r g b) = .ok [w] ∧
        decode w = .ok (.setpx (BitVec.ofNat 5 idx) (BitVec.ofNat 8 g) (BitVec.ofNat 8 r) (BitVec.ofNat 8 b))) ∧
    (32 ≤ idx ∨ 256 ≤ r ∨ 256 ≤ g ∨ 256 ≤ b → assemble (.setpx idx r g b) = .error .operandDoesNotFit)

/-- The assembler's lines with no operands, MAP, DIGIT, `.word` and BLANK: each gives the words of R84 and R85, a
command's word decodes to that command with those operands, and an operand that does not fit is an error (R83). -/
def Obligations.AssembledCommandsDecode : Prop :=
  assemble .nop = .ok [0x00000000#32] ∧ assemble .init = .ok [0x20000000#32] ∧
  assemble .clear = .ok [0x60000000#32] ∧ assemble .flush = .ok [0x80000000#32] ∧
  assemble .blank = .ok [0x60000000#32, 0x80000000#32] ∧
  (∀ x y : Nat,
    (x < 256 → y < 256 → ∃ w, assemble (.map x y) = .ok [w] ∧
      decode w = .ok (.map (BitVec.ofNat 8 x) (BitVec.ofNat 8 y))) ∧
    (256 ≤ x ∨ 256 ≤ y → assemble (.map x y) = .error .operandDoesNotFit)) ∧
  (∀ d : Nat,
    (d < 256 → ∃ w, assemble (.digit d) = .ok [w] ∧ decode w = .ok (.digit (BitVec.ofNat 8 d))) ∧
    (256 ≤ d → assemble (.digit d) = .error .operandDoesNotFit)) ∧
  (∀ v : Nat,
    (v < 2 ^ 32 → ∃ w, assemble (.word v) = .ok [w] ∧ w.toNat = v) ∧
    (2 ^ 32 ≤ v → assemble (.word v) = .error .operandDoesNotFit))

/-- SETXY x, y, r, g, b is SETPX M(x, y), r, g, b for a cell of the grid, with M as R161 gives it, and an error outside
the grid or where a colour does not fit (R85). Which error it is, is the model's choice (log 9). -/
def Obligations.AssembledSetxyIsSetpxOfMap : Prop :=
  ∀ x y r g b : Nat,
    (x ≤ 4 → y ≤ 4 → r < 256 → g < 256 → b < 256 →
      assemble (.setxy x y r g b) =
          assemble (.setpx (if y % 2 = 0 then 24 - (y * 5 + x) else 24 - (y * 5 + (4 - x))) r g b) ∧
        ∃ w, assemble (.setxy x y r g b) = .ok [w] ∧
          decode w = .ok (.setpx
            (BitVec.ofNat 5 (if y % 2 = 0 then 24 - (y * 5 + x) else 24 - (y * 5 + (4 - x))))
            (BitVec.ofNat 8 g) (BitVec.ofNat 8 r) (BitVec.ofNat 8 b))) ∧
    (5 ≤ x ∨ 5 ≤ y ∨ 256 ≤ r ∨ 256 ≤ g ∨ 256 ≤ b → assemble (.setxy x y r g b) = .error .operandDoesNotFit)

/-- The assembler's text (R83 to R85). A written-out line of each mnemonic is read as its source line, with decimal and
`0x` numbers; every source line is read back from its text; a number is read back from its decimal and its hexadecimal
digits; a comment is not read; a line gives the words of the source line it is read as; and a line of blanks gives none.
The blanks are the model's choice (log 9). -/
def Obligations.AssembledTextDropsComments : Prop :=
  (parseLine "NOP".toList = .ok (some .nop) ∧ parseLine "INIT".toList = .ok (some .init) ∧
    parseLine "SETPX 0, 3, 0x7, 9 ; pixel 0".toList = .ok (some (.setpx 0 3 7 9)) ∧
    parseLine "CLEAR".toList = .ok (some .clear) ∧ parseLine "FLUSH".toList = .ok (some .flush) ∧
    parseLine "MAP 4, 1".toList = .ok (some (.map 4 1)) ∧ parseLine "DIGIT 9".toList = .ok (some (.digit 9)) ∧
    parseLine ".word 0xE0000000".toList = .ok (some (.word 0xE0000000)) ∧
    parseLine "BLANK".toList = .ok (some .blank) ∧
    parseLine "SETXY 0, 0, 255, 0, 0".toList = .ok (some (.setxy 0 0 255 0 0))) ∧
  (∀ a : Asm, parseLine (lineText a) = .ok (some a)) ∧
  (∀ v : Nat, parseNumber (Nat.toDigits 10 v) = some v ∧ parseNumber ('0' :: 'x' :: Nat.toDigits 16 v) = some v) ∧
  (∀ (line comment : List Char), ';' ∉ line →
    assembleLine (line ++ ';' :: comment) = assembleLine line ∧
    (∀ a, parseLine line = .ok (some a) → assembleLine line = assemble a) ∧
    ((∀ ch ∈ line, ch = ' ' ∨ ch = '\t') → assembleLine line = .ok []))

/- ## Progress -/

/-- The gap ends: with no reset to come, and whatever the host does and however the line encoder's moves fall between
the edges (the schedule of log 3), a block in GAP is in IDLE after exactly the clock edges that are left of GAP_CYCLES, and
no earlier: before that GAP_CNT has counted the edges and only them, and one LATCH is appended at the last edge and nothing
before it (R134, R135, R232). -/
def Obligations.GapEndsAfterGapCycles : Prop :=
  ∀ (s : State) (moves later : List Mover), s.phase = .gap → s.env.rstIn = [] →
    s.gapCnt + moves.count .clock + 1 = gapCycles s.cfg → s.env.sched = moves ++ .clock :: later →
    (∀ j, j ≤ moves.length → ∃ u, core.run j s = .next u ∧ u.phase = .gap ∧
      u.gapCnt = s.gapCnt + (moves.take j).count .clock ∧ u.curOp = s.curOp ∧ u.log.trace = s.log.trace) ∧
    ∃ t, core.run (moves.length + 1) s = .next t ∧ t.phase = .idle ∧ t.log.trace = s.log.trace ++ [.latch] ∧
      (s.curOp = .none → t.resp = s.resp ∧ t.rspPulse = false) ∧
      (s.curOp = .flush → t.resp = 0x80000000#32 ∧ t.rspPulse = true) ∧
      (s.curOp = .digit → t.resp = 0xC0000000#32 ∧ t.rspPulse = true)

/-- A run that is over stays over, with the same observable result, while no reset comes: pauses, reads and ignored
writes may be left to the host, and none of them changes it (R245). -/
def Obligations.RunThatIsOverKeepsItsResult : Prop :=
  ∀ s t : State, runOver s = true → rstLevel s = false → step s = .next t →
    runOver t = true ∧ observed t = observed s

/-- FLUSH and DIGIT complete: from every state of the invariant in IDLE after INIT, with the command offered and no
reset coming, some schedule of edges and line-encoder moves (log 3) leads to the end of the command, with the trace grown by exactly the
75 bytes of the buffer the command sends and one LATCH, and RESP naming the command with code OK (R130 to R136, R184). -/
def Obligations.FrameCommandsSendOneFrameAndComplete : Prop :=
  ∀ (s : State) (c : Word) (i : Instr) (p : Vector Pixel 25), Inv s → s.phase = .idle → s.initDone = true →
    s.env.rstIn = [] → s.env.host = [.offer c] → decode c = .ok i →
    ((i = .flush ∧ p = s.pix) ∨
      ∃ (d : Byte) (h : d.toNat < 10), i = .digit d ∧ p = Vector.ofFn (renderPixel (glyphRom s.cfg ⟨d.toNat, h⟩))) →
    ∃ (sched : List Mover) (k : Nat) (t : State),
      core.run k { s with env := { s.env with sched := sched } } = .next t ∧
      t.phase = .idle ∧ t.resp = respWord i.op .ok 0 ∧ t.pix = p ∧ t.env.host = [] ∧
      t.log.trace = s.log.trace ++ (frameBytes p).map .byte ++ [.latch]
end

