-- ==== Sys2Proof/Laws/Assembler.lean ====
section
/-! SUPPORT. What the assembler's readers do on digits, blanks and commas (R83). -/

namespace Sys2Proof.Machine

/-- One more digit at the end. -/
theorem digitsValue_append (base : Nat) (cs : List Char) (c : Char) (acc : Nat) :
    digitsValue base (cs ++ [c]) acc =
      (digitsValue base cs acc).bind fun v => (digitValue base c).map fun d => v * base + d := by
  induction cs generalizing acc with
  | nil => cases h : digitValue base c <;> simp [digitsValue, h]
  | cons x xs ih => cases h : digitValue base x <;> simp [digitsValue, h, ih]

theorem digitValue_digitChar {base d : Nat} (hb : base = 10 ∨ base = 16) (hd : d < base) :
    digitValue base d.digitChar = some d := by
  obtain rfl | rfl := hb <;> interval_cases d <;> decide

/-- The digits of a number are read as the number. -/
theorem digitsValue_toDigits {base : Nat} (hb : base = 10 ∨ base = 16) (v : Nat) :
    digitsValue base (Nat.toDigits base v) 0 = some v := by
  induction v using Nat.strongRecOn with
  | _ v ih =>
    by_cases h : v < base
    · rw [Nat.toDigits_of_lt_base h]
      simp [digitsValue, digitValue_digitChar hb h]
    · rw [Nat.toDigits_of_base_le (by omega) (by omega), digitsValue_append,
        ih _ (Nat.div_lt_self (by omega) (by omega))]
      simpa [digitValue_digitChar hb (Nat.mod_lt v (by omega : base > 0))] using Nat.div_add_mod' v base

/-- A decimal digit is no blank, no comma and no comment sign. -/
theorem isDigit_plain {c : Char} (h : c.isDigit = true) : isBlank c = false ∧ c ≠ ',' ∧ c ≠ ';' := by
  refine ⟨?_, ?_, ?_⟩
  · simp only [isBlank, Bool.or_eq_false_iff, beq_eq_false_iff_ne]
    constructor <;> (rintro rfl; revert h; decide)
  all_goals (rintro rfl; revert h; decide)

/-- A text with no blank at its ends is its own token. -/
theorem trim_of_ends (l : List Char) (h1 : ∀ c ∈ l.head?, isBlank c = false)
    (h2 : ∀ c ∈ l.getLast?, isBlank c = false) : trim l = l := by
  have drop : ∀ m : List Char, (∀ c ∈ m.head?, isBlank c = false) → m.dropWhile isBlank = m := by
    intro m h
    cases m with
    | nil => rfl
    | cons a m => simp at h; simp [h]
  unfold trim
  rw [drop _ h1, drop _ (by rw [List.head?_reverse]; exact h2), List.reverse_reverse]

@[simp] theorem trim_blank (l : List Char) : trim (' ' :: l) = trim l := by
  unfold trim
  rw [List.dropWhile_cons_of_pos (by decide)]

/-- The first operand ends at the first comma. -/
theorem splitCommas_comma (l r : List Char) (h : ',' ∉ l) : splitCommas (l ++ ',' :: r) = l :: splitCommas r := by
  induction l with
  | nil => simp [splitCommas]
  | cons a l ih =>
    have ha : a ≠ ',' := by rintro rfl; simp at h
    simp [splitCommas, ha, ih (by simp at h; exact h.2)]

theorem splitCommas_single (l : List Char) (h : ',' ∉ l) : splitCommas l = [l] := by
  induction l with
  | nil => rfl
  | cons a l ih =>
    have ha : a ≠ ',' := by rintro rfl; simp at h
    simp [splitCommas, ha, ih (by simp at h; exact h.2)]

end Sys2Proof.Machine
end

