-- ==== Sys2Proof/Laws/Encoding.lean ====
section
/-! SUPPORT. The fields of encoded words, a word as its fields, and everything a word that decodes can be. -/

namespace Sys2Proof

/-- The OP field of an encoded command is its OP (R71, R77). -/
theorem opField_encode (i : Instr) : opField (encode i) = i.op := by
  cases i <;> simp only [encode, Instr.op] <;> (try decide)
  all_goals
    ext k hk
    simp only [opField, BitVec.getElem_extractLsb', BitVec.getLsbD_append]
    interval_cases k <;> simp

/-- Each operand of an encoded command stands in its field (R73 to R76). -/
theorem idxField_setpx (idx : BitVec 5) (g r b : Byte) : idxField (encode (.setpx idx g r b)) = idx := by
  ext k hk
  simp only [idxField, encode, BitVec.getElem_extractLsb', BitVec.getLsbD_append]
  interval_cases k <;> simp

theorem greenField_setpx (idx : BitVec 5) (g r b : Byte) : greenField (encode (.setpx idx g r b)) = g := by
  ext k hk
  simp only [greenField, encode, BitVec.getElem_extractLsb', BitVec.getLsbD_append]
  interval_cases k <;> simp

theorem highOperand_setpx (idx : BitVec 5) (g r b : Byte) : highOperand (encode (.setpx idx g r b)) = r := by
  ext k hk
  simp only [highOperand, encode, BitVec.getElem_extractLsb', BitVec.getLsbD_append]
  interval_cases k <;> simp

theorem lowOperand_setpx (idx : BitVec 5) (g r b : Byte) : lowOperand (encode (.setpx idx g r b)) = b := by
  ext k hk
  simp only [lowOperand, encode, BitVec.getElem_extractLsb', BitVec.getLsbD_append]
  interval_cases k <;> simp

theorem highOperand_map (x y : Byte) : highOperand (encode (.map x y)) = x := by
  ext k hk
  simp only [highOperand, encode, BitVec.getElem_extractLsb', BitVec.getLsbD_append]
  interval_cases k <;> simp

theorem lowOperand_map (x y : Byte) : lowOperand (encode (.map x y)) = y := by
  ext k hk
  simp only [lowOperand, encode, BitVec.getElem_extractLsb', BitVec.getLsbD_append]
  interval_cases k <;> simp

theorem reservedC_map (x y : Byte) : reservedC (encode (.map x y)) = 0 := by
  ext k hk
  simp only [reservedC, encode, BitVec.getElem_extractLsb', BitVec.getLsbD_append]
  interval_cases k <;> simp

theorem lowOperand_digit (d : Byte) : lowOperand (encode (.digit d)) = d := by
  ext k hk
  simp only [lowOperand, encode, BitVec.getElem_extractLsb', BitVec.getLsbD_append]
  interval_cases k <;> simp

theorem reservedD_digit (d : Byte) : reservedD (encode (.digit d)) = 0 := by
  ext k hk
  simp only [reservedD, encode, BitVec.getElem_extractLsb', BitVec.getLsbD_append]
  interval_cases k <;> simp

/-- Everything a word that decodes can be (R77): by command, its OP, its reserved bits and its operands. -/
theorem decode_cases {c : Word} {i : Instr} (h : decode c = .ok i) :
    (i = .nop ∧ opField c = 0b000#3 ∧ reservedN c = 0) ∨
    (i = .init ∧ opField c = 0b001#3 ∧ reservedN c = 0) ∨
    (i = .setpx (idxField c) (greenField c) (highOperand c) (lowOperand c) ∧ opField c = 0b010#3) ∨
    (i = .clear ∧ opField c = 0b011#3 ∧ reservedN c = 0) ∨
    (i = .flush ∧ opField c = 0b100#3 ∧ reservedN c = 0) ∨
    (i = .map (highOperand c) (lowOperand c) ∧ opField c = 0b101#3 ∧ reservedC c = 0) ∨
    (i = .digit (lowOperand c) ∧ opField c = 0b110#3 ∧ reservedD c = 0) := by
  unfold decode at h
  (repeat' split at h) <;> simp_all

/-- OP has eight values (R71). -/
theorem op_cases (c : Word) : opField c = 0#3 ∨ opField c = 1#3 ∨ opField c = 2#3 ∨ opField c = 3#3 ∨
    opField c = 4#3 ∨ opField c = 5#3 ∨ opField c = 6#3 ∨ opField c = 7#3 := by
  generalize opField c = o
  revert o; decide

/-- A word is its fields in format P (R73). -/
theorem word_formatP (c : Word) :
    opField c ++ idxField c ++ greenField c ++ highOperand c ++ lowOperand c = c := by
  apply BitVec.eq_of_getLsbD_eq
  intro k hk
  simp only [opField, idxField, greenField, highOperand, lowOperand, BitVec.getLsbD_append,
    BitVec.getLsbD_extractLsb']
  interval_cases k <;> simp

/-- A word is its fields in format N (R72). -/
theorem word_formatN (c : Word) : opField c ++ reservedN c = c := by
  apply BitVec.eq_of_getLsbD_eq
  intro k hk
  simp only [opField, reservedN, BitVec.getLsbD_append, BitVec.getLsbD_extractLsb']
  interval_cases k <;> simp

/-- A word is its fields in format C (R74). -/
theorem word_formatC (c : Word) : opField c ++ reservedC c ++ highOperand c ++ lowOperand c = c := by
  apply BitVec.eq_of_getLsbD_eq
  intro k hk
  simp only [opField, reservedC, highOperand, lowOperand, BitVec.getLsbD_append, BitVec.getLsbD_extractLsb']
  interval_cases k <;> simp

/-- A word is its fields in format D (R75). -/
theorem word_formatD (c : Word) : opField c ++ reservedD c ++ lowOperand c = c := by
  apply BitVec.eq_of_getLsbD_eq
  intro k hk
  simp only [opField, reservedD, lowOperand, BitVec.getLsbD_append, BitVec.getLsbD_extractLsb']
  interval_cases k <;> simp

end Sys2Proof
end

