-- ==== Sys2Proof/Laws/State.lean ====
section
/-! SUPPORT. One lemma per field per update of State, so that no proof unfolds a record update. -/

namespace Sys2Proof.Machine

@[simp] theorem respond_cfg (op : Op) (code : Code) (result : BitVec 5) (s : State) : (respond op code result s).cfg = s.cfg := rfl
@[simp] theorem respond_pix (op : Op) (code : Code) (result : BitVec 5) (s : State) : (respond op code result s).pix = s.pix := rfl
@[simp] theorem respond_initDone (op : Op) (code : Code) (result : BitVec 5) (s : State) : (respond op code result s).initDone = s.initDone := rfl
@[simp] theorem respond_resp (op : Op) (code : Code) (result : BitVec 5) (s : State) : (respond op code result s).resp = respWord op code result := rfl
@[simp] theorem respond_rspPulse (op : Op) (code : Code) (result : BitVec 5) (s : State) : (respond op code result s).rspPulse = true := rfl
@[simp] theorem respond_phase (op : Op) (code : Code) (result : BitVec 5) (s : State) : (respond op code result s).phase = s.phase := rfl
@[simp] theorem respond_byteCnt (op : Op) (code : Code) (result : BitVec 5) (s : State) : (respond op code result s).byteCnt = s.byteCnt := rfl
@[simp] theorem respond_gapCnt (op : Op) (code : Code) (result : BitVec 5) (s : State) : (respond op code result s).gapCnt = s.gapCnt := rfl
@[simp] theorem respond_curOp (op : Op) (code : Code) (result : BitVec 5) (s : State) : (respond op code result s).curOp = s.curOp := rfl
@[simp] theorem respond_le (op : Op) (code : Code) (result : BitVec 5) (s : State) : (respond op code result s).le = s.le := rfl
@[simp] theorem respond_env (op : Op) (code : Code) (result : BitVec 5) (s : State) : (respond op code result s).env = s.env := rfl
@[simp] theorem respond_log (op : Op) (code : Code) (result : BitVec 5) (s : State) : (respond op code result s).log = s.log := rfl

@[simp] theorem withPix_cfg (p : Vector Pixel 25) (s : State) : (withPix p s).cfg = s.cfg := rfl
@[simp] theorem withPix_pix (p : Vector Pixel 25) (s : State) : (withPix p s).pix = p := rfl
@[simp] theorem withPix_initDone (p : Vector Pixel 25) (s : State) : (withPix p s).initDone = s.initDone := rfl
@[simp] theorem withPix_resp (p : Vector Pixel 25) (s : State) : (withPix p s).resp = s.resp := rfl
@[simp] theorem withPix_rspPulse (p : Vector Pixel 25) (s : State) : (withPix p s).rspPulse = s.rspPulse := rfl
@[simp] theorem withPix_phase (p : Vector Pixel 25) (s : State) : (withPix p s).phase = s.phase := rfl
@[simp] theorem withPix_byteCnt (p : Vector Pixel 25) (s : State) : (withPix p s).byteCnt = s.byteCnt := rfl
@[simp] theorem withPix_gapCnt (p : Vector Pixel 25) (s : State) : (withPix p s).gapCnt = s.gapCnt := rfl
@[simp] theorem withPix_curOp (p : Vector Pixel 25) (s : State) : (withPix p s).curOp = s.curOp := rfl
@[simp] theorem withPix_le (p : Vector Pixel 25) (s : State) : (withPix p s).le = s.le := rfl
@[simp] theorem withPix_env (p : Vector Pixel 25) (s : State) : (withPix p s).env = s.env := rfl
@[simp] theorem withPix_log (p : Vector Pixel 25) (s : State) : (withPix p s).log = s.log := rfl

@[simp] theorem setPixel_cfg (i : Nat) (h : i < 25) (v : Pixel) (s : State) : (setPixel i h v s).cfg = s.cfg := rfl
@[simp] theorem setPixel_pix (i : Nat) (h : i < 25) (v : Pixel) (s : State) : (setPixel i h v s).pix = s.pix.set i v h := rfl
@[simp] theorem setPixel_initDone (i : Nat) (h : i < 25) (v : Pixel) (s : State) : (setPixel i h v s).initDone = s.initDone := rfl
@[simp] theorem setPixel_resp (i : Nat) (h : i < 25) (v : Pixel) (s : State) : (setPixel i h v s).resp = s.resp := rfl
@[simp] theorem setPixel_rspPulse (i : Nat) (h : i < 25) (v : Pixel) (s : State) : (setPixel i h v s).rspPulse = s.rspPulse := rfl
@[simp] theorem setPixel_phase (i : Nat) (h : i < 25) (v : Pixel) (s : State) : (setPixel i h v s).phase = s.phase := rfl
@[simp] theorem setPixel_byteCnt (i : Nat) (h : i < 25) (v : Pixel) (s : State) : (setPixel i h v s).byteCnt = s.byteCnt := rfl
@[simp] theorem setPixel_gapCnt (i : Nat) (h : i < 25) (v : Pixel) (s : State) : (setPixel i h v s).gapCnt = s.gapCnt := rfl
@[simp] theorem setPixel_curOp (i : Nat) (h : i < 25) (v : Pixel) (s : State) : (setPixel i h v s).curOp = s.curOp := rfl
@[simp] theorem setPixel_le (i : Nat) (h : i < 25) (v : Pixel) (s : State) : (setPixel i h v s).le = s.le := rfl
@[simp] theorem setPixel_env (i : Nat) (h : i < 25) (v : Pixel) (s : State) : (setPixel i h v s).env = s.env := rfl
@[simp] theorem setPixel_log (i : Nat) (h : i < 25) (v : Pixel) (s : State) : (setPixel i h v s).log = s.log := rfl

@[simp] theorem clearPixels_cfg (s : State) : (clearPixels s).cfg = s.cfg := rfl
@[simp] theorem clearPixels_pix (s : State) : (clearPixels s).pix = zeroPixels := rfl
@[simp] theorem clearPixels_initDone (s : State) : (clearPixels s).initDone = s.initDone := rfl
@[simp] theorem clearPixels_resp (s : State) : (clearPixels s).resp = s.resp := rfl
@[simp] theorem clearPixels_rspPulse (s : State) : (clearPixels s).rspPulse = s.rspPulse := rfl
@[simp] theorem clearPixels_phase (s : State) : (clearPixels s).phase = s.phase := rfl
@[simp] theorem clearPixels_byteCnt (s : State) : (clearPixels s).byteCnt = s.byteCnt := rfl
@[simp] theorem clearPixels_gapCnt (s : State) : (clearPixels s).gapCnt = s.gapCnt := rfl
@[simp] theorem clearPixels_curOp (s : State) : (clearPixels s).curOp = s.curOp := rfl
@[simp] theorem clearPixels_le (s : State) : (clearPixels s).le = s.le := rfl
@[simp] theorem clearPixels_env (s : State) : (clearPixels s).env = s.env := rfl
@[simp] theorem clearPixels_log (s : State) : (clearPixels s).log = s.log := rfl

@[simp] theorem claimChannel_cfg (s : State) : (claimChannel s).cfg = s.cfg := rfl
@[simp] theorem claimChannel_pix (s : State) : (claimChannel s).pix = s.pix := rfl
@[simp] theorem claimChannel_initDone (s : State) : (claimChannel s).initDone = true := rfl
@[simp] theorem claimChannel_resp (s : State) : (claimChannel s).resp = s.resp := rfl
@[simp] theorem claimChannel_rspPulse (s : State) : (claimChannel s).rspPulse = s.rspPulse := rfl
@[simp] theorem claimChannel_phase (s : State) : (claimChannel s).phase = s.phase := rfl
@[simp] theorem claimChannel_byteCnt (s : State) : (claimChannel s).byteCnt = s.byteCnt := rfl
@[simp] theorem claimChannel_gapCnt (s : State) : (claimChannel s).gapCnt = s.gapCnt := rfl
@[simp] theorem claimChannel_curOp (s : State) : (claimChannel s).curOp = s.curOp := rfl
@[simp] theorem claimChannel_le (s : State) : (claimChannel s).le = s.le := rfl
@[simp] theorem claimChannel_env (s : State) : (claimChannel s).env = s.env := rfl
@[simp] theorem claimChannel_log (s : State) : (claimChannel s).log = s.log := rfl

@[simp] theorem startFrame_cfg (owner : CurOp) (s : State) : (startFrame owner s).cfg = s.cfg := rfl
@[simp] theorem startFrame_pix (owner : CurOp) (s : State) : (startFrame owner s).pix = s.pix := rfl
@[simp] theorem startFrame_initDone (owner : CurOp) (s : State) : (startFrame owner s).initDone = s.initDone := rfl
@[simp] theorem startFrame_resp (owner : CurOp) (s : State) : (startFrame owner s).resp = s.resp := rfl
@[simp] theorem startFrame_rspPulse (owner : CurOp) (s : State) : (startFrame owner s).rspPulse = s.rspPulse := rfl
@[simp] theorem startFrame_phase (owner : CurOp) (s : State) : (startFrame owner s).phase = .tx := rfl
@[simp] theorem startFrame_byteCnt (owner : CurOp) (s : State) : (startFrame owner s).byteCnt = 0 := rfl
@[simp] theorem startFrame_gapCnt (owner : CurOp) (s : State) : (startFrame owner s).gapCnt = s.gapCnt := rfl
@[simp] theorem startFrame_curOp (owner : CurOp) (s : State) : (startFrame owner s).curOp = owner := rfl
@[simp] theorem startFrame_le (owner : CurOp) (s : State) : (startFrame owner s).le = s.le := rfl
@[simp] theorem startFrame_env (owner : CurOp) (s : State) : (startFrame owner s).env = s.env := rfl
@[simp] theorem startFrame_log (owner : CurOp) (s : State) : (startFrame owner s).log = s.log := rfl

@[simp] theorem popHost_cfg (s : State) : (popHost s).cfg = s.cfg := rfl
@[simp] theorem popHost_pix (s : State) : (popHost s).pix = s.pix := rfl
@[simp] theorem popHost_initDone (s : State) : (popHost s).initDone = s.initDone := rfl
@[simp] theorem popHost_resp (s : State) : (popHost s).resp = s.resp := rfl
@[simp] theorem popHost_rspPulse (s : State) : (popHost s).rspPulse = s.rspPulse := rfl
@[simp] theorem popHost_phase (s : State) : (popHost s).phase = s.phase := rfl
@[simp] theorem popHost_byteCnt (s : State) : (popHost s).byteCnt = s.byteCnt := rfl
@[simp] theorem popHost_gapCnt (s : State) : (popHost s).gapCnt = s.gapCnt := rfl
@[simp] theorem popHost_curOp (s : State) : (popHost s).curOp = s.curOp := rfl
@[simp] theorem popHost_le (s : State) : (popHost s).le = s.le := rfl
@[simp] theorem popHost_log (s : State) : (popHost s).log = s.log := rfl
@[simp] theorem popHost_env_host (s : State) : (popHost s).env.host = s.env.host.tail := rfl
@[simp] theorem popHost_env_rstIn (s : State) : (popHost s).env.rstIn = s.env.rstIn := rfl
@[simp] theorem popHost_env_draws (s : State) : (popHost s).env.draws = s.env.draws := rfl

@[simp] theorem returnRead_cfg (v : Word) (s : State) : (returnRead v s).cfg = s.cfg := rfl
@[simp] theorem returnRead_pix (v : Word) (s : State) : (returnRead v s).pix = s.pix := rfl
@[simp] theorem returnRead_initDone (v : Word) (s : State) : (returnRead v s).initDone = s.initDone := rfl
@[simp] theorem returnRead_resp (v : Word) (s : State) : (returnRead v s).resp = s.resp := rfl
@[simp] theorem returnRead_rspPulse (v : Word) (s : State) : (returnRead v s).rspPulse = s.rspPulse := rfl
@[simp] theorem returnRead_phase (v : Word) (s : State) : (returnRead v s).phase = s.phase := rfl
@[simp] theorem returnRead_byteCnt (v : Word) (s : State) : (returnRead v s).byteCnt = s.byteCnt := rfl
@[simp] theorem returnRead_gapCnt (v : Word) (s : State) : (returnRead v s).gapCnt = s.gapCnt := rfl
@[simp] theorem returnRead_curOp (v : Word) (s : State) : (returnRead v s).curOp = s.curOp := rfl
@[simp] theorem returnRead_le (v : Word) (s : State) : (returnRead v s).le = s.le := rfl
@[simp] theorem returnRead_env (v : Word) (s : State) : (returnRead v s).env = s.env := rfl
@[simp] theorem returnRead_log_trace (v : Word) (s : State) : (returnRead v s).log.trace = s.log.trace := rfl
@[simp] theorem returnRead_log_line (v : Word) (s : State) : (returnRead v s).log.line = s.log.line := rfl
@[simp] theorem returnRead_log_reads (v : Word) (s : State) : (returnRead v s).log.reads = s.log.reads ++ [v] := rfl

@[simp] theorem popRst_cfg (s : State) : (popRst s).cfg = s.cfg := rfl
@[simp] theorem popRst_pix (s : State) : (popRst s).pix = s.pix := rfl
@[simp] theorem popRst_initDone (s : State) : (popRst s).initDone = s.initDone := rfl
@[simp] theorem popRst_resp (s : State) : (popRst s).resp = s.resp := rfl
@[simp] theorem popRst_rspPulse (s : State) : (popRst s).rspPulse = s.rspPulse := rfl
@[simp] theorem popRst_phase (s : State) : (popRst s).phase = s.phase := rfl
@[simp] theorem popRst_byteCnt (s : State) : (popRst s).byteCnt = s.byteCnt := rfl
@[simp] theorem popRst_gapCnt (s : State) : (popRst s).gapCnt = s.gapCnt := rfl
@[simp] theorem popRst_curOp (s : State) : (popRst s).curOp = s.curOp := rfl
@[simp] theorem popRst_le (s : State) : (popRst s).le = s.le := rfl
@[simp] theorem popRst_log (s : State) : (popRst s).log = s.log := rfl
@[simp] theorem popRst_env_rstIn (s : State) : (popRst s).env.rstIn = s.env.rstIn.tail := rfl
@[simp] theorem popRst_env_host (s : State) : (popRst s).env.host = s.env.host := rfl
@[simp] theorem popRst_env_draws (s : State) : (popRst s).env.draws = s.env.draws := rfl
@[simp] theorem popRst_env_sched (s : State) : (popRst s).env.sched = s.env.sched := rfl

@[simp] theorem dropPulse_cfg (s : State) : (dropPulse s).cfg = s.cfg := rfl
@[simp] theorem dropPulse_pix (s : State) : (dropPulse s).pix = s.pix := rfl
@[simp] theorem dropPulse_initDone (s : State) : (dropPulse s).initDone = s.initDone := rfl
@[simp] theorem dropPulse_resp (s : State) : (dropPulse s).resp = s.resp := rfl
@[simp] theorem dropPulse_rspPulse (s : State) : (dropPulse s).rspPulse = false := rfl
@[simp] theorem dropPulse_phase (s : State) : (dropPulse s).phase = s.phase := rfl
@[simp] theorem dropPulse_byteCnt (s : State) : (dropPulse s).byteCnt = s.byteCnt := rfl
@[simp] theorem dropPulse_gapCnt (s : State) : (dropPulse s).gapCnt = s.gapCnt := rfl
@[simp] theorem dropPulse_curOp (s : State) : (dropPulse s).curOp = s.curOp := rfl
@[simp] theorem dropPulse_le (s : State) : (dropPulse s).le = s.le := rfl
@[simp] theorem dropPulse_env (s : State) : (dropPulse s).env = s.env := rfl
@[simp] theorem dropPulse_log (s : State) : (dropPulse s).log = s.log := rfl

@[simp] theorem popMover_cfg (s : State) : (popMover s).cfg = s.cfg := by unfold popMover; split <;> rfl
@[simp] theorem popMover_pix (s : State) : (popMover s).pix = s.pix := by unfold popMover; split <;> rfl
@[simp] theorem popMover_initDone (s : State) : (popMover s).initDone = s.initDone := by unfold popMover; split <;> rfl
@[simp] theorem popMover_resp (s : State) : (popMover s).resp = s.resp := by unfold popMover; split <;> rfl
@[simp] theorem popMover_rspPulse (s : State) : (popMover s).rspPulse = s.rspPulse := by unfold popMover; split <;> rfl
@[simp] theorem popMover_phase (s : State) : (popMover s).phase = s.phase := by unfold popMover; split <;> rfl
@[simp] theorem popMover_byteCnt (s : State) : (popMover s).byteCnt = s.byteCnt := by unfold popMover; split <;> rfl
@[simp] theorem popMover_gapCnt (s : State) : (popMover s).gapCnt = s.gapCnt := by unfold popMover; split <;> rfl
@[simp] theorem popMover_curOp (s : State) : (popMover s).curOp = s.curOp := by unfold popMover; split <;> rfl
@[simp] theorem popMover_le (s : State) : (popMover s).le = s.le := by unfold popMover; split <;> rfl
@[simp] theorem popMover_log (s : State) : (popMover s).log = s.log := by unfold popMover; split <;> rfl
@[simp] theorem popMover_env_rstIn (s : State) : (popMover s).env.rstIn = s.env.rstIn := by
  unfold popMover; split <;> simp_all
@[simp] theorem popMover_env_host (s : State) : (popMover s).env.host = s.env.host := by
  unfold popMover; split <;> simp_all
@[simp] theorem popMover_env_draws (s : State) : (popMover s).env.draws = s.env.draws := by
  unfold popMover; split <;> simp_all
@[simp] theorem popMover_env_sched (s : State) : (popMover s).env.sched = s.env.sched.tail := by
  unfold popMover; split <;> simp_all

@[simp] theorem record_cfg (e : BusEvent) (s : State) : (record e s).cfg = s.cfg := rfl
@[simp] theorem record_pix (e : BusEvent) (s : State) : (record e s).pix = s.pix := rfl
@[simp] theorem record_initDone (e : BusEvent) (s : State) : (record e s).initDone = s.initDone := rfl
@[simp] theorem record_resp (e : BusEvent) (s : State) : (record e s).resp = s.resp := rfl
@[simp] theorem record_rspPulse (e : BusEvent) (s : State) : (record e s).rspPulse = s.rspPulse := rfl
@[simp] theorem record_phase (e : BusEvent) (s : State) : (record e s).phase = s.phase := rfl
@[simp] theorem record_byteCnt (e : BusEvent) (s : State) : (record e s).byteCnt = s.byteCnt := rfl
@[simp] theorem record_gapCnt (e : BusEvent) (s : State) : (record e s).gapCnt = s.gapCnt := rfl
@[simp] theorem record_curOp (e : BusEvent) (s : State) : (record e s).curOp = s.curOp := rfl
@[simp] theorem record_le (e : BusEvent) (s : State) : (record e s).le = s.le := rfl
@[simp] theorem record_env (e : BusEvent) (s : State) : (record e s).env = s.env := rfl
@[simp] theorem record_log_trace (e : BusEvent) (s : State) : (record e s).log.trace = s.log.trace ++ [e] := rfl
@[simp] theorem record_log_line (e : BusEvent) (s : State) : (record e s).log.line = s.log.line := rfl
@[simp] theorem record_log_reads (e : BusEvent) (s : State) : (record e s).log.reads = s.log.reads := rfl

@[simp] theorem emit_cfg (b : Byte) (s : State) : (emit b s).cfg = s.cfg := rfl
@[simp] theorem emit_pix (b : Byte) (s : State) : (emit b s).pix = s.pix := rfl
@[simp] theorem emit_initDone (b : Byte) (s : State) : (emit b s).initDone = s.initDone := rfl
@[simp] theorem emit_resp (b : Byte) (s : State) : (emit b s).resp = s.resp := rfl
@[simp] theorem emit_rspPulse (b : Byte) (s : State) : (emit b s).rspPulse = s.rspPulse := rfl
@[simp] theorem emit_phase (b : Byte) (s : State) : (emit b s).phase = s.phase := rfl
@[simp] theorem emit_byteCnt (b : Byte) (s : State) : (emit b s).byteCnt = s.byteCnt := rfl
@[simp] theorem emit_gapCnt (b : Byte) (s : State) : (emit b s).gapCnt = s.gapCnt := rfl
@[simp] theorem emit_curOp (b : Byte) (s : State) : (emit b s).curOp = s.curOp := rfl
@[simp] theorem emit_le (b : Byte) (s : State) : (emit b s).le = { s.le with hold := b, holdFull := true } := rfl
@[simp] theorem emit_env (b : Byte) (s : State) : (emit b s).env = s.env := rfl
@[simp] theorem emit_log_trace (b : Byte) (s : State) : (emit b s).log.trace = s.log.trace ++ [.byte b] := rfl
@[simp] theorem emit_log_line (b : Byte) (s : State) : (emit b s).log.line = s.log.line := rfl
@[simp] theorem emit_log_reads (b : Byte) (s : State) : (emit b s).log.reads = s.log.reads := rfl

@[simp] theorem latch_cfg (s : State) : (latch s).cfg = s.cfg := rfl
@[simp] theorem latch_pix (s : State) : (latch s).pix = s.pix := rfl
@[simp] theorem latch_initDone (s : State) : (latch s).initDone = s.initDone := rfl
@[simp] theorem latch_resp (s : State) : (latch s).resp = s.resp := rfl
@[simp] theorem latch_rspPulse (s : State) : (latch s).rspPulse = s.rspPulse := rfl
@[simp] theorem latch_phase (s : State) : (latch s).phase = s.phase := rfl
@[simp] theorem latch_byteCnt (s : State) : (latch s).byteCnt = s.byteCnt := rfl
@[simp] theorem latch_gapCnt (s : State) : (latch s).gapCnt = s.gapCnt := rfl
@[simp] theorem latch_curOp (s : State) : (latch s).curOp = s.curOp := rfl
@[simp] theorem latch_le (s : State) : (latch s).le = s.le := rfl
@[simp] theorem latch_env (s : State) : (latch s).env = s.env := rfl
@[simp] theorem latch_log_trace (s : State) : (latch s).log.trace = s.log.trace ++ [.latch] := rfl
@[simp] theorem latch_log_line (s : State) : (latch s).log.line = s.log.line := rfl
@[simp] theorem latch_log_reads (s : State) : (latch s).log.reads = s.log.reads := rfl

@[simp] theorem resetBlock_cfg (s : State) : (resetBlock s).cfg = s.cfg := by
  simp [resetBlock, State.reset]
@[simp] theorem resetBlock_pix (s : State) : (resetBlock s).pix = freePixels s.env.draws := by
  simp [resetBlock, State.reset]
@[simp] theorem resetBlock_initDone (s : State) : (resetBlock s).initDone = false := by
  simp [resetBlock, State.reset]
@[simp] theorem resetBlock_resp (s : State) : (resetBlock s).resp = 0x00000000#32 := by
  simp [resetBlock, State.reset]
@[simp] theorem resetBlock_rspPulse (s : State) : (resetBlock s).rspPulse = false := by
  simp [resetBlock, State.reset]
@[simp] theorem resetBlock_phase (s : State) : (resetBlock s).phase = .gap := by
  simp [resetBlock, State.reset]
@[simp] theorem resetBlock_byteCnt (s : State) : (resetBlock s).byteCnt = 0 := by
  simp [resetBlock, State.reset]
@[simp] theorem resetBlock_gapCnt (s : State) : (resetBlock s).gapCnt = 0 := by
  simp [resetBlock, State.reset]
@[simp] theorem resetBlock_curOp (s : State) : (resetBlock s).curOp = .none := by
  simp [resetBlock, State.reset]
@[simp] theorem resetBlock_le (s : State) : (resetBlock s).le = LineEncoder.afterReset s.env.draws := by
  simp [resetBlock, State.reset]
@[simp] theorem resetBlock_env_rstIn (s : State) : (resetBlock s).env.rstIn = s.env.rstIn := by
  simp [resetBlock, State.reset]
@[simp] theorem resetBlock_env_host (s : State) : (resetBlock s).env.host = s.env.host := by
  simp [resetBlock, State.reset]
@[simp] theorem resetBlock_env_sched (s : State) : (resetBlock s).env.sched = s.env.sched := by
  simp [resetBlock, State.reset]
@[simp] theorem resetBlock_env_draws (s : State) : (resetBlock s).env.draws = s.env.draws + 1 := by
  simp [resetBlock, State.reset]
@[simp] theorem resetBlock_log_trace (s : State) : (resetBlock s).log.trace = traceAfterReset s := by
  simp [resetBlock, State.reset]
@[simp] theorem resetBlock_log_line (s : State) : (resetBlock s).log.line = s.log.line := by
  simp [resetBlock, State.reset]
@[simp] theorem resetBlock_log_reads (s : State) : (resetBlock s).log.reads = s.log.reads := by
  simp [resetBlock, State.reset]

@[simp] theorem hostMove_cfg (s : State) : (hostMove s).cfg = s.cfg := by
  unfold hostMove; split <;> (try split) <;> rfl
@[simp] theorem hostMove_pix (s : State) : (hostMove s).pix = s.pix := by
  unfold hostMove; split <;> (try split) <;> rfl
@[simp] theorem hostMove_initDone (s : State) : (hostMove s).initDone = s.initDone := by
  unfold hostMove; split <;> (try split) <;> rfl
@[simp] theorem hostMove_resp (s : State) : (hostMove s).resp = s.resp := by
  unfold hostMove; split <;> (try split) <;> rfl
@[simp] theorem hostMove_rspPulse (s : State) : (hostMove s).rspPulse = s.rspPulse := by
  unfold hostMove; split <;> (try split) <;> rfl
@[simp] theorem hostMove_phase (s : State) : (hostMove s).phase = s.phase := by
  unfold hostMove; split <;> (try split) <;> rfl
@[simp] theorem hostMove_byteCnt (s : State) : (hostMove s).byteCnt = s.byteCnt := by
  unfold hostMove; split <;> (try split) <;> rfl
@[simp] theorem hostMove_gapCnt (s : State) : (hostMove s).gapCnt = s.gapCnt := by
  unfold hostMove; split <;> (try split) <;> rfl
@[simp] theorem hostMove_curOp (s : State) : (hostMove s).curOp = s.curOp := by
  unfold hostMove; split <;> (try split) <;> rfl
@[simp] theorem hostMove_le (s : State) : (hostMove s).le = s.le := by
  unfold hostMove; split <;> (try split) <;> rfl
@[simp] theorem hostMove_env_rstIn (s : State) : (hostMove s).env.rstIn = s.env.rstIn := by
  unfold hostMove; split <;> (try split) <;> rfl
@[simp] theorem hostMove_env_sched (s : State) : (hostMove s).env.sched = s.env.sched := by
  unfold hostMove; split <;> (try split) <;> rfl
@[simp] theorem hostMove_env_draws (s : State) : (hostMove s).env.draws = s.env.draws := by
  unfold hostMove; split <;> (try split) <;> rfl
@[simp] theorem hostMove_log_trace (s : State) : (hostMove s).log.trace = s.log.trace := by
  unfold hostMove; split <;> (try split) <;> rfl
@[simp] theorem hostMove_log_line (s : State) : (hostMove s).log.line = s.log.line := by
  unfold hostMove; split <;> (try split) <;> rfl

@[simp] theorem commandWord_pause (cfg : Config) : HostAct.pause.commandWord cfg = none := rfl
@[simp] theorem commandWord_offer (cfg : Config) (c : Word) : (HostAct.offer c).commandWord cfg = some c := rfl
@[simp] theorem commandWord_offerOnce (cfg : Config) (c : Word) : (HostAct.offerOnce c).commandWord cfg = some c := rfl
@[simp] theorem commandWord_load (cfg : Config) (addr size : Nat) : (HostAct.load addr size).commandWord cfg = none := rfl
/-- A write offers its value exactly when it is a write to CMD (R57). -/
@[simp] theorem commandWord_store (cfg : Config) (addr size : Nat) (v c : Word) :
    (HostAct.store addr size v).commandWord cfg = some c ↔ mapReg cfg addr size = some .cmd ∧ v = c := by
  simp [HostAct.commandWord]

/-- Which register each admitted address is (R57). -/
theorem mapReg_of_base {cfg : Config} {base : Nat} (h : cfg.base = some base) :
    mapReg cfg base 4 = some .cmd ∧ mapReg cfg (base + 4) 4 = some .resp ∧
    mapReg cfg (base + 8) 4 = some .status := by simp [mapReg, h]

@[simp] theorem respondOwner_cfg (owner : CurOp) (s : State) : (respondOwner owner s).cfg = s.cfg := by cases owner <;> rfl
@[simp] theorem respondOwner_pix (owner : CurOp) (s : State) : (respondOwner owner s).pix = s.pix := by cases owner <;> rfl
@[simp] theorem respondOwner_initDone (owner : CurOp) (s : State) : (respondOwner owner s).initDone = s.initDone := by cases owner <;> rfl
@[simp] theorem respondOwner_phase (owner : CurOp) (s : State) : (respondOwner owner s).phase = s.phase := by cases owner <;> rfl
@[simp] theorem respondOwner_byteCnt (owner : CurOp) (s : State) : (respondOwner owner s).byteCnt = s.byteCnt := by cases owner <;> rfl
@[simp] theorem respondOwner_gapCnt (owner : CurOp) (s : State) : (respondOwner owner s).gapCnt = s.gapCnt := by cases owner <;> rfl
@[simp] theorem respondOwner_curOp (owner : CurOp) (s : State) : (respondOwner owner s).curOp = s.curOp := by cases owner <;> rfl
@[simp] theorem respondOwner_le (owner : CurOp) (s : State) : (respondOwner owner s).le = s.le := by cases owner <;> rfl
@[simp] theorem respondOwner_env (owner : CurOp) (s : State) : (respondOwner owner s).env = s.env := by cases owner <;> rfl
@[simp] theorem respondOwner_log (owner : CurOp) (s : State) : (respondOwner owner s).log = s.log := by cases owner <;> rfl

@[simp] theorem leMove_cfg (s : State) : (leMove s).cfg = s.cfg := by
  unfold leMove; split <;> (try split) <;> rfl
@[simp] theorem leMove_pix (s : State) : (leMove s).pix = s.pix := by
  unfold leMove; split <;> (try split) <;> rfl
@[simp] theorem leMove_initDone (s : State) : (leMove s).initDone = s.initDone := by
  unfold leMove; split <;> (try split) <;> rfl
@[simp] theorem leMove_resp (s : State) : (leMove s).resp = s.resp := by
  unfold leMove; split <;> (try split) <;> rfl
@[simp] theorem leMove_rspPulse (s : State) : (leMove s).rspPulse = s.rspPulse := by
  unfold leMove; split <;> (try split) <;> rfl
@[simp] theorem leMove_phase (s : State) : (leMove s).phase = s.phase := by
  unfold leMove; split <;> (try split) <;> rfl
@[simp] theorem leMove_byteCnt (s : State) : (leMove s).byteCnt = s.byteCnt := by
  unfold leMove; split <;> (try split) <;> rfl
@[simp] theorem leMove_gapCnt (s : State) : (leMove s).gapCnt = s.gapCnt := by
  unfold leMove; split <;> (try split) <;> rfl
@[simp] theorem leMove_curOp (s : State) : (leMove s).curOp = s.curOp := by
  unfold leMove; split <;> (try split) <;> rfl
@[simp] theorem leMove_env (s : State) : (leMove s).env = s.env := by
  unfold leMove; split <;> (try split) <;> rfl
@[simp] theorem leMove_log_trace (s : State) : (leMove s).log.trace = s.log.trace := by
  unfold leMove; split <;> (try split) <;> rfl
@[simp] theorem leMove_log_reads (s : State) : (leMove s).log.reads = s.log.reads := by
  unfold leMove; split <;> (try split) <;> rfl

@[simp] theorem advanceByte_cfg (s : State) : (advanceByte s).cfg = s.cfg := by unfold advanceByte; split <;> rfl
@[simp] theorem advanceByte_pix (s : State) : (advanceByte s).pix = s.pix := by unfold advanceByte; split <;> rfl
@[simp] theorem advanceByte_initDone (s : State) : (advanceByte s).initDone = s.initDone := by unfold advanceByte; split <;> rfl
@[simp] theorem advanceByte_resp (s : State) : (advanceByte s).resp = s.resp := by unfold advanceByte; split <;> rfl
@[simp] theorem advanceByte_rspPulse (s : State) : (advanceByte s).rspPulse = s.rspPulse := by unfold advanceByte; split <;> rfl
@[simp] theorem advanceByte_gapCnt (s : State) : (advanceByte s).gapCnt = s.gapCnt := by unfold advanceByte; split <;> rfl
@[simp] theorem advanceByte_curOp (s : State) : (advanceByte s).curOp = s.curOp := by unfold advanceByte; split <;> rfl
@[simp] theorem advanceByte_le (s : State) : (advanceByte s).le = s.le := by unfold advanceByte; split <;> rfl
@[simp] theorem advanceByte_env (s : State) : (advanceByte s).env = s.env := by unfold advanceByte; split <;> rfl
@[simp] theorem advanceByte_log (s : State) : (advanceByte s).log = s.log := by unfold advanceByte; split <;> rfl

@[simp] theorem atAcceptance_cfg (s : State) : (atAcceptance s).cfg = s.cfg := by simp [atAcceptance]
@[simp] theorem atAcceptance_pix (s : State) : (atAcceptance s).pix = s.pix := by simp [atAcceptance]
@[simp] theorem atAcceptance_initDone (s : State) : (atAcceptance s).initDone = s.initDone := by simp [atAcceptance]
@[simp] theorem atAcceptance_resp (s : State) : (atAcceptance s).resp = s.resp := by simp [atAcceptance]
@[simp] theorem atAcceptance_rspPulse (s : State) : (atAcceptance s).rspPulse = false := by simp [atAcceptance]
@[simp] theorem atAcceptance_phase (s : State) : (atAcceptance s).phase = s.phase := by simp [atAcceptance]
@[simp] theorem atAcceptance_byteCnt (s : State) : (atAcceptance s).byteCnt = s.byteCnt := by simp [atAcceptance]
@[simp] theorem atAcceptance_gapCnt (s : State) : (atAcceptance s).gapCnt = s.gapCnt := by simp [atAcceptance]
@[simp] theorem atAcceptance_curOp (s : State) : (atAcceptance s).curOp = s.curOp := by simp [atAcceptance]
@[simp] theorem atAcceptance_le (s : State) : (atAcceptance s).le = s.le := by simp [atAcceptance]
@[simp] theorem atAcceptance_log (s : State) : (atAcceptance s).log = s.log := by simp [atAcceptance]

end Sys2Proof.Machine
end

