-- ==== Sys2Proof/Laws/Ops.lean ====
section
/-! SUPPORT. What a response word holds, and everything a command can do. -/

namespace Sys2Proof.Machine

/-- The fields of a response word (R25). -/
theorem respWord_fields (op : Op) (code : Code) (r : BitVec 5) :
    (respWord op code r).extractLsb' 13 16 = 0#16 ∧ (respWord op code r).extractLsb' 4 4 = 0#4 ∧
    respCode (respWord op code r) = code.toBits ∧ respResult (respWord op code r) = r ∧
    respOp (respWord op code r) = op := by
  simp only [respCode, respResult, respOp, respWord]
  refine ⟨?_, ?_, ?_, ?_, ?_⟩ <;>
  · ext k hk
    simp only [BitVec.getElem_extractLsb', BitVec.getLsbD_append]
    interval_cases k <;> simp

/-- Codes 6 to 15 are never produced (R201). -/
theorem Code.toBits_le (code : Code) : code.toBits.toNat ≤ 5 := by cases code <;> decide

/-- The INIT gate either runs the rest or raises NOT_INITIALIZED (R82). -/
theorem requireInit_of_done {op : Op} {s : State} {k : State → Result} (h : s.initDone = true) :
    requireInit op s k = k s := if_pos h

theorem requireInit_of_not_done {op : Op} {s : State} {k : State → Result} (h : s.initDone = false) :
    requireInit op s k = .next (raise op .notInitialized s) := by simp [requireInit, h]

/-- RAISE writes the response and nothing else (R203). -/
theorem raise_eq (op : Op) (code : Code) (s : State) :
    raise op code s = { s with resp := respWord op code 0, rspPulse := true } := rfl

/-- Everything a command that goes on can have done: respond, or change the buffer and respond, or start a frame. -/
theorem exec_cases {i : Instr} {s t : State} (h : exec i s = .next t) :
    (∃ code, code ≠ .ok ∧ t = raise i.op code s) ∨
    (i = .nop ∧ t = respond 0b000#3 .ok 0 s) ∨
    (i = .init ∧ s.initDone = false ∧ t = respond 0b001#3 .ok 0 (claimChannel (clearPixels s))) ∨
    (∃ idx g r b, ∃ hi : idx.toNat < 25, i = .setpx idx g r b ∧ s.initDone = true ∧
      t = respond 0b010#3 .ok 0 (setPixel idx.toNat hi (pixelWord g r b) s)) ∨
    (i = .clear ∧ s.initDone = true ∧ t = respond 0b011#3 .ok 0 (clearPixels s)) ∨
    (i = .flush ∧ s.initDone = true ∧ t = startFrame .flush s) ∨
    (∃ x y, i = .map x y ∧ x.toNat ≤ 4 ∧ y.toNat ≤ 4 ∧ s.initDone = true ∧
      t = respond 0b101#3 .ok (BitVec.ofNat 5 (mapNat x.toNat y.toNat)) s) ∨
    (∃ d, ∃ hd : d.toNat < 10, i = .digit d ∧ s.initDone = true ∧
      t = startFrame .digit (withPix (paintGlyph (glyphRom s.cfg ⟨d.toNat, hd⟩)) s)) := by
  cases i <;>
    simp only [exec, execNop, execInit, execSetpx, execClear, execFlush, execMap, execDigit, requireInit] at h <;>
    (repeat' split at h) <;>
    simp only [Host.Outcome.next.injEq] at h <;> subst h <;>
    first
      | exact .inl ⟨.notInitialized, by decide, rfl⟩
      | exact .inl ⟨.resourceUnavailable, by decide, rfl⟩
      | exact .inl ⟨.outOfRange, by decide, rfl⟩
      | exact .inl ⟨.invalidDigit, by decide, rfl⟩
      | simp_all [Instr.op]

/-- No command touches the line encoder, the trace, the parameters or the environment in its acceptance step. -/
theorem exec_keeps {i : Instr} {s t : State} (he : exec i s = .next t) :
    t.log = s.log ∧ t.cfg = s.cfg ∧ t.le = s.le ∧ t.env = s.env := by
  obtain ⟨code, _, rfl⟩ | ⟨_, rfl⟩ | ⟨_, _, rfl⟩ | ⟨_, _, _, _, _, _, _, rfl⟩ | ⟨_, _, rfl⟩ | ⟨_, _, rfl⟩ |
    ⟨_, _, _, _, _, _, rfl⟩ | ⟨_, _, _, _, rfl⟩ := exec_cases he <;> simp [raise]

end Sys2Proof.Machine
end

