-- ==== Sys2Proof/Laws/PerInstr.lean ====
section
/-! SUPPORT. Laws stated of every command, one lemma per constructor. -/

namespace Sys2Proof.Laws.EncodedWord

/-- The word of a command carries its OP, is legal, and is matched by the row of its mnemonic (R71, R77). -/
def Statement (i : Instr) : Prop :=
  opField (encode i) = i.op ∧ i.wf = true ∧ i.mnemonic ∈ opRows.map OpRow.mnemonic

theorem nop : Statement .nop := ⟨opField_encode _, rfl, by decide⟩
theorem init : Statement .init := ⟨opField_encode _, rfl, by decide⟩
theorem setpx (idx : BitVec 5) (g r b : Byte) : Statement (.setpx idx g r b) :=
  ⟨opField_encode _, rfl, by simp [Instr.mnemonic, opRows]⟩
theorem clear : Statement .clear := ⟨opField_encode _, rfl, by decide⟩
theorem flush : Statement .flush := ⟨opField_encode _, rfl, by decide⟩
theorem map (x y : Byte) : Statement (.map x y) := ⟨opField_encode _, rfl, by simp [Instr.mnemonic, opRows]⟩
theorem digit (d : Byte) : Statement (.digit d) := ⟨opField_encode _, rfl, by simp [Instr.mnemonic, opRows]⟩

end Sys2Proof.Laws.EncodedWord
end

