-- ==== Sys2Proof/Laws/Sequencer.lean ====
section
/-! SUPPORT. The trace and its frames, and everything the sequencer and the line encoder can do in one move. -/

namespace Sys2Proof.Machine

/-- The trace grows by a byte of the open frame, or by a LATCH that closes it (R142). -/
@[simp] theorem openFrame_byte (tr : List BusEvent) (b : Byte) :
    openFrame (tr ++ [.byte b]) = openFrame tr ++ [b] := by simp [openFrame, cutTrace, frameStep]
@[simp] theorem openFrame_latch (tr : List BusEvent) : openFrame (tr ++ [.latch]) = [] := by
  simp [openFrame, cutTrace, frameStep]
@[simp] theorem closedFrames_byte (tr : List BusEvent) (b : Byte) :
    closedFrames (tr ++ [.byte b]) = closedFrames tr := by simp [closedFrames, cutTrace, frameStep]
@[simp] theorem closedFrames_latch (tr : List BusEvent) :
    closedFrames (tr ++ [.latch]) = closedFrames tr ++ [openFrame tr] := by
  simp [closedFrames, openFrame, cutTrace, frameStep]

/-- Taking bytes back stops at a LATCH. -/
@[simp] theorem withoutLastBytes_zero (tr : List BusEvent) : withoutLastBytes 0 tr = tr := by
  simp [withoutLastBytes, dropLatest]
@[simp] theorem withoutLastBytes_nil (k : Nat) : withoutLastBytes k [] = [] := by
  cases k <;> rfl
@[simp] theorem withoutLastBytes_latch (k : Nat) (tr : List BusEvent) :
    withoutLastBytes k (tr ++ [.latch]) = tr ++ [.latch] := by
  cases k <;> simp [withoutLastBytes, dropLatest]
@[simp] theorem withoutLastBytes_byte (k : Nat) (tr : List BusEvent) (b : Byte) :
    withoutLastBytes (k + 1) (tr ++ [.byte b]) = withoutLastBytes k tr := by
  simp [withoutLastBytes, dropLatest]

/-- Bytes come off the open frame only: the closed frames stay, and of the open one the beginning stays (R244). -/
theorem withoutLastBytes_frames (k : Nat) (tr : List BusEvent) :
    closedFrames (withoutLastBytes k tr) = closedFrames tr ∧
    openFrame (withoutLastBytes k tr) = (openFrame tr).take ((openFrame tr).length - k) := by
  induction tr using List.reverseRecOn generalizing k with
  | nil => simp [openFrame, cutTrace]
  | append_singleton tr e ih =>
    cases e with
    | latch => simp
    | byte b =>
      cases k with
      | zero => simp
      | succ k =>
        rw [withoutLastBytes_byte, closedFrames_byte, openFrame_byte, (ih k).1, (ih k).2]
        simp [List.take_append_of_le_length]

@[simp] theorem frameBytes_length (p : Vector Pixel 25) : (frameBytes p).length = 75 := by simp [frameBytes]

/-- Handing over byte `k` makes the frame's first `k` bytes its first `k + 1` (R132). -/
theorem frameBytes_take_succ (p : Vector Pixel 25) (k : Fin 75) :
    (frameBytes p).take k.val ++ [frameByte p k] = (frameBytes p).take (k.val + 1) := by
  have hk : k.val < (frameBytes p).length := by simp
  rw [List.take_succ_eq_append_getElem hk]
  simp [frameBytes]

/-- GAP_CYCLES is never 0 (R30). -/
theorem gapCycles_pos (c : Config) : 0 < gapCycles c := by unfold gapCycles gapMin; omega

/-- `le_idle` (R138). -/
theorem leIdle_iff (le : LineEncoder) : leIdle le = true ↔ le.holdFull = false ∧ le.bits = 0 := by simp [leIdle]

/-- Everything an edge in TX can do (R132). -/
theorem txEdge_cases (s : State) :
    (s.le.holdFull = true ∧ txEdge s = s) ∨
    (s.le.holdFull = false ∧ s.byteCnt.val = 74 ∧
      txEdge s = { emit (frameByte s.pix s.byteCnt) s with phase := .drain }) ∨
    (s.le.holdFull = false ∧ ∃ h : s.byteCnt.val ≠ 74,
      txEdge s = { emit (frameByte s.pix s.byteCnt) s with
        byteCnt := ⟨s.byteCnt.val + 1, by omega⟩ }) := by
  cases hf : s.le.holdFull with
  | true => exact .inl ⟨rfl, by simp [txEdge, byteReady, hf]⟩
  | false =>
    have he : txEdge s = advanceByte (emit (frameByte s.pix s.byteCnt) s) := by
      simp [txEdge, byteReady, byteData, hf]
    rw [he]
    by_cases h : s.byteCnt.val = 74
    · exact .inr (.inl ⟨rfl, h, dif_pos h⟩)
    · exact .inr (.inr ⟨rfl, h, dif_neg h⟩)

/-- At a sequencer edge a byte is handed over exactly when `byte_valid` and `byte_ready` are both 1 (R138). -/
theorem sequencerEdge_transfer (s : State) :
    (sequencerEdge s).log.trace = s.log.trace ++ [.byte (byteData s)] ↔
      byteValid s = true ∧ byteReady s.le = true := by
  unfold sequencerEdge byteValid byteReady byteData
  cases hp : s.phase with
  | idle => simp
  | tx =>
    obtain ⟨hf, h⟩ | ⟨hf, _, h⟩ | ⟨hf, _, h⟩ := txEdge_cases s <;> simp [h, hf]
  | drain => simp [drainEdge]; split <;> simp
  | gap =>
    simp [gapEdge]
    split
    · simp
    · split <;> simp [gapEnd]

/-- Everything an edge in DRAIN can do (R133). -/
theorem drainEdge_cases (s : State) :
    ((s.le.holdFull = false ∧ s.le.bits = 0) ∧ drainEdge s = { s with phase := .gap, gapCnt := 0 }) ∨
    (¬(s.le.holdFull = false ∧ s.le.bits = 0) ∧ drainEdge s = s) := by
  unfold drainEdge
  by_cases h : leIdle s.le = true
  · exact .inl ⟨(leIdle_iff _).1 h, if_pos h⟩
  · exact .inr ⟨fun h' => h ((leIdle_iff _).2 h'), if_neg h⟩

/-- Everything an edge in GAP can do (R134, R135). -/
theorem gapEdge_cases (s : State) :
    (s.gapCnt < gapCycles s.cfg - 1 ∧ gapEdge s = { s with gapCnt := s.gapCnt + 1 }) ∨
    (s.gapCnt = gapCycles s.cfg - 1 ∧ gapEdge s = gapEnd s) ∨
    (gapCycles s.cfg - 1 < s.gapCnt ∧ gapEdge s = s) := by
  unfold gapEdge
  split
  · simp_all
  · split
    · simp_all
    · right; right; exact ⟨by omega, rfl⟩

@[simp] theorem gapEnd_trace (s : State) : (gapEnd s).log.trace = s.log.trace ++ [.latch] := by simp [gapEnd]
@[simp] theorem gapEnd_reads (s : State) : (gapEnd s).log.reads = s.log.reads := by simp [gapEnd]
@[simp] theorem gapEnd_le (s : State) : (gapEnd s).le = s.le := by simp [gapEnd]
@[simp] theorem gapEnd_line (s : State) : (gapEnd s).log.line = s.log.line := by simp [gapEnd]
@[simp] theorem gapEnd_pix (s : State) : (gapEnd s).pix = s.pix := by simp [gapEnd]
@[simp] theorem gapEnd_cfg (s : State) : (gapEnd s).cfg = s.cfg := by simp [gapEnd]
@[simp] theorem gapEnd_env (s : State) : (gapEnd s).env = s.env := by simp [gapEnd]
@[simp] theorem gapEnd_initDone (s : State) : (gapEnd s).initDone = s.initDone := by simp [gapEnd]
@[simp] theorem gapEnd_phase (s : State) : (gapEnd s).phase = .idle := by simp [gapEnd]
@[simp] theorem gapEnd_curOp (s : State) : (gapEnd s).curOp = .none := by simp [gapEnd]

/-- Everything the sequencer can do at an edge that accepts nothing (R132 to R135). -/
theorem sequencerEdge_cases (s : State) :
    (sequencerEdge s = s) ∨
    (s.phase = .tx ∧ s.le.holdFull = false ∧ s.byteCnt.val = 74 ∧
      sequencerEdge s = { emit (frameByte s.pix s.byteCnt) s with phase := .drain }) ∨
    (s.phase = .tx ∧ s.le.holdFull = false ∧ ∃ h : s.byteCnt.val ≠ 74,
      sequencerEdge s = { emit (frameByte s.pix s.byteCnt) s with
        byteCnt := ⟨s.byteCnt.val + 1, by omega⟩ }) ∨
    (s.phase = .drain ∧ (s.le.holdFull = false ∧ s.le.bits = 0) ∧
      sequencerEdge s = { s with phase := .gap, gapCnt := 0 }) ∨
    (s.phase = .gap ∧ s.gapCnt < gapCycles s.cfg - 1 ∧
      sequencerEdge s = { s with gapCnt := s.gapCnt + 1 }) ∨
    (s.phase = .gap ∧ s.gapCnt = gapCycles s.cfg - 1 ∧
      sequencerEdge s = gapEnd s) := by
  unfold sequencerEdge
  split
  · exact .inl rfl
  · obtain ⟨_, h⟩ | ⟨h1, h2, h⟩ | ⟨h1, h2, h⟩ := txEdge_cases s
    · exact .inl h
    · exact .inr (.inl ⟨‹_›, h1, h2, h⟩)
    · exact .inr (.inr (.inl ⟨‹_›, h1, h2, h⟩))
  · obtain ⟨h1, h⟩ | ⟨h1, h⟩ := drainEdge_cases s
    · exact .inr (.inr (.inr (.inl ⟨‹_›, h1, h⟩)))
    · exact .inl h
  · obtain ⟨h1, h⟩ | ⟨h1, h⟩ | ⟨h1, h⟩ := gapEdge_cases s
    · exact .inr (.inr (.inr (.inr (.inl ⟨‹_›, h1, h⟩))))
    · exact .inr (.inr (.inr (.inr (.inr ⟨‹_›, h1, h⟩))))
    · exact .inl h

/-- The sequencer never writes the buffer, INIT_DONE, the parameters or the environment (R137). -/
theorem sequencerEdge_keeps (s : State) :
    (sequencerEdge s).pix = s.pix ∧ (sequencerEdge s).initDone = s.initDone ∧ (sequencerEdge s).cfg = s.cfg ∧
    (sequencerEdge s).env = s.env ∧ (sequencerEdge s).log.line = s.log.line ∧
    (sequencerEdge s).log.reads = s.log.reads := by
  obtain h | ⟨_, _, _, h⟩ | ⟨_, _, _, h⟩ | ⟨_, _, h⟩ | ⟨_, _, h⟩ | ⟨_, _, h⟩ := sequencerEdge_cases s <;>
    rw [h] <;> simp

/-- Everything the line encoder can do in one move (R139). -/
theorem leMove_cases (s : State) :
    (s.le.sub = .start ∧ s.le.bits = 0 ∧ leMove s = { s with le := s.le.loadIfReady }) ∨
    (s.le.sub = .start ∧ s.le.bits ≠ 0 ∧ leMove s = { s with le := { s.le with dout := true, sub := .high } }) ∨
    (s.le.sub = .high ∧ leMove s = { s with le := { s.le with dout := false, sub := .low } }) ∨
    (s.le.sub = .low ∧ leMove s = { s with
      le := s.le.dropBit.loadIfReady
      log := { s.log with line := s.log.line ++ [pulseOf s.cfg s.le.currentBit] } }) := by
  unfold leMove
  split
  · split
    · exact .inl ⟨‹_›, ‹_›, rfl⟩
    · exact .inr (.inl ⟨‹_›, ‹_›, rfl⟩)
  · exact .inr (.inr (.inl ⟨‹_›, rfl⟩))
  · exact .inr (.inr (.inr ⟨‹_›, rfl⟩))

/-- What a load does when it happens (R139). -/
theorem LineEncoder.loadIfReady_cases (le : LineEncoder) :
    ((le.bits = 0 ∧ le.holdFull = true) ∧ le.loadIfReady = le.load) ∨
    (¬(le.bits = 0 ∧ le.holdFull = true) ∧ le.loadIfReady = le) := by
  unfold LineEncoder.loadIfReady
  split
  · exact .inl ⟨‹_›, rfl⟩
  · exact .inr ⟨‹_›, rfl⟩

/-- What a reset edge leaves of the trace (R244): all of it outside DRAIN, and in DRAIN the closed frames with the
beginning of the open one. -/
theorem traceAfterReset_of_not_drain {s : State} (h : s.phase ≠ .drain) : traceAfterReset s = s.log.trace := if_neg h
theorem traceAfterReset_of_drain {s : State} (h : s.phase = .drain) :
    traceAfterReset s = withoutLastBytes (75 - (Config.freeCut s.env.draws).val) s.log.trace := if_pos h

/-- A reset edge never closes a frame, and the frame in progress keeps its beginning (R230, R244). -/
theorem traceAfterReset_frames (s : State) :
    closedFrames (traceAfterReset s) = closedFrames s.log.trace ∧
    openFrame (traceAfterReset s) <+: openFrame s.log.trace := by
  by_cases h : s.phase = .drain
  · rw [traceAfterReset_of_drain h]
    obtain ⟨h1, h2⟩ := withoutLastBytes_frames (75 - (Config.freeCut s.env.draws).val) s.log.trace
    exact ⟨h1, h2 ▸ List.take_prefix _ _⟩
  · simp [traceAfterReset_of_not_drain h]

end Sys2Proof.Machine
end

