-- ==== Sys2Proof/Laws/Step.lean ====
section
/-! SUPPORT. Everything a step can do, said once. -/

namespace Sys2Proof.Machine

@[simp] theorem rstLevel_popMover (s : State) : rstLevel (popMover s) = rstLevel s := by simp [rstLevel]

@[simp] theorem offered_popMover (s : State) : offered (popMover s) = offered s := by
  simp [offered]
@[simp] theorem offered_popRst (s : State) : offered (popRst s) = offered s := rfl

/-- What is offered is the command of the host's next act, if that has one. -/
theorem offered_of_host {s : State} {act : HostAct} {rest : List HostAct} (h : s.env.host = act :: rest) :
    offered s = act.commandWord s.cfg := by simp [offered, h]

/-- With no command left, nothing is offered (R245). -/
theorem offered_of_no_commandLeft {s : State} (h : commandLeft s = false) : offered s = none := by
  unfold commandLeft at h
  cases hh : s.env.host with
  | nil => simp [offered, hh]
  | cons act rest => simp_all [offered_of_host hh]

/-- Everything the host can do at an edge that does not accept its command (R54, R57, R236). -/
theorem hostMove_cases (s : State) :
    hostMove s = s ∨ hostMove s = popHost s ∨ ∃ v, hostMove s = popHost (returnRead v s) := by
  unfold hostMove
  split
  · exact .inl rfl
  · exact .inr (.inl rfl)
  · exact .inl rfl
  · exact .inr (.inl rfl)
  · split
    · exact .inl rfl
    · exact .inr (.inr ⟨_, rfl⟩)
  · split
    · exact .inl rfl
    · exact .inl rfl
    · exact .inr (.inl rfl)
    · exact .inr (.inl rfl)

/-- A held offer, and a CMD write, waits at an edge that does not accept it (R236, R57). -/
theorem hostMove_of_held {s : State} {act : HostAct} {rest : List HostAct} (hh : s.env.host = act :: rest)
    (ha : (∃ c, act = .offer c) ∨ ∃ addr size v, act = .store addr size v ∧ mapReg s.cfg addr size = some .cmd) :
    hostMove s = s := by
  obtain ⟨c, rfl⟩ | ⟨addr, size, v, rfl, hm⟩ := ha <;> simp_all [hostMove]

/-- A host that offers a command is not stuck. -/
theorem hostStuck_of_offered {s : State} {c : Word} (h : offered s = some c) : hostStuck s = false := by
  unfold hostStuck
  split
  · simp_all [offered_of_host ‹_›]
  · rw [offered_of_host ‹_›, commandWord_store] at h
    simp [h.1]
  · rfl

@[simp] theorem hostStuck_popMover (s : State) : hostStuck (popMover s) = hostStuck s := by
  unfold hostStuck; rw [popMover_env_host, popMover_cfg]
@[simp] theorem hostStuck_popRst (s : State) : hostStuck (popRst s) = hostStuck s := rfl

/-- Everything an edge with `rst` = 0 can do that goes on. -/
theorem runEdge_cases {s t : State} (h : runEdge s = .next t) :
    (∃ c, s.phase = .idle ∧ offered s = some c ∧ accept c (popHost (dropPulse s)) = .next t) ∨
    ((s.phase ≠ .idle ∨ offered s = none) ∧ t = sequencerEdge (hostMove (dropPulse s))) := by
  unfold runEdge at h
  split at h
  · exact .inl ⟨_, ‹_›, ‹_›, h⟩
  · rename_i hne
    refine .inr ⟨?_, by simpa using h.symm⟩
    by_cases hp : s.phase = .idle
    · cases ho : offered s with
      | none => exact .inr rfl
      | some c => exact absurd ho (hne c hp)
    · exact .inl hp

/-- Everything a step that goes on can have done. -/
theorem step_cases {s t : State} (h : step s = .next t) :
    (mover s = .lineEncoder ∧ t = leMove (popMover s)) ∨
    (mover s = .clock ∧ rstLevel s = true ∧ t = resetBlock (popRst (popMover s))) ∨
    (∃ c, acceptNext c s ∧ accept c (atAcceptance s) = .next t) ∨
    (edgeNext s ∧ (s.phase ≠ .idle ∨ offered s = none) ∧
      t = sequencerEdge (hostMove (dropPulse (popRst (popMover s))))) := by
  unfold step at h
  split at h
  · rename_i hm
    unfold clockEdge at h
    rw [rstLevel_popMover] at h
    split at h
    · exact .inr (.inl ⟨hm, ‹_›, by simpa using h.symm⟩)
    · rename_i hr
      split at h
      · simp at h
      · obtain ⟨c, hp, ho, ha⟩ | ⟨hn, ht⟩ := runEdge_cases h
        · refine .inr (.inr (.inl ⟨c, ⟨⟨hm, by simpa using hr⟩, by simpa using hp, by simpa using ho⟩, ha⟩))
        · exact .inr (.inr (.inr ⟨⟨hm, by simpa using hr⟩, by simpa using hn, ht⟩))
  · exact .inl ⟨‹_›, by simpa using h.symm⟩

/-- The acceptance step is `accept` at the acceptance state. -/
theorem step_of_acceptNext {s : State} {c : Word} (h : acceptNext c s) :
    step s = accept c (atAcceptance s) := by
  obtain ⟨⟨hm, hr⟩, hp, ho⟩ := h
  have hs : hostStuck s = false := hostStuck_of_offered ho
  simp [step, hm, clockEdge, hr, machineStuck, hs, runEdge, hp, ho, atAcceptance]

/-- An edge outside IDLE, with `rst` = 0: host and sequencer each move. -/
theorem step_of_busyEdge {s : State} (h : edgeNext s) (hp : s.phase ≠ .idle) :
    step s = .next (sequencerEdge (hostMove (dropPulse (popRst (popMover s))))) := by
  obtain ⟨hm, hr⟩ := h
  have hq : quiescent (popRst (popMover s)) = false := by simp [quiescent, hp]
  simp [step, hm, clockEdge, hr, machineStuck, hq]
  unfold runEdge
  split
  · simp_all
  · rfl

/-- An edge with `rst` = 0 at which nothing is offered and the host is not stuck: host and sequencer each move. -/
theorem step_of_quietEdge {s : State} (h : edgeNext s) (ho : offered s = none) (hs : hostStuck s = false) :
    step s = .next (sequencerEdge (hostMove (dropPulse (popRst (popMover s))))) := by
  obtain ⟨hm, hr⟩ := h
  simp [step, hm, clockEdge, hr, machineStuck, hs]
  unfold runEdge
  split
  · simp_all
  · rfl

/-- A run of no step, and of one step more. -/
theorem core_run_zero (s : State) : core.run 0 s = .next s := rfl
theorem core_run_succ {s u : State} (h : step s = .next u) (k : Nat) : core.run (k + 1) s = core.run k u := by
  simp [Host.Core.run, core, h]

/-- An edge with `rst` = 1 (R230). -/
theorem step_of_reset {s : State} (hm : mover s = .clock) (hr : rstLevel s = true) :
    step s = .next (resetBlock (popRst (popMover s))) := by
  simp [step, hm, clockEdge, hr]

/-- A move of the line encoder (R139). -/
theorem step_of_lineEncoder {s : State} (hm : mover s = .lineEncoder) :
    step s = .next (leMove (popMover s)) := by simp [step, hm]

/-- Acceptance of a legal word runs its command (R100). -/
theorem accept_of_ok {c : Word} {i : Instr} (h : decode c = .ok i) (s : State) : accept c s = exec i s := by
  simp [accept, h]

/-- Acceptance of an illegal word (R78). -/
theorem accept_of_error {c : Word} {e : Illegal} (h : decode c = .error e) (s : State) :
    accept c s = .next (raise (opField c) .illegalCommand s) := by simp [accept, h]

/-- Acceptance of any word leaves the line encoder, the trace, the parameters and the environment. -/
theorem accept_keeps {c : Word} {s t : State} (he : accept c s = .next t) :
    t.log = s.log ∧ t.cfg = s.cfg ∧ t.le = s.le ∧ t.env = s.env := by
  cases hd : decode c with
  | ok i => exact exec_keeps (accept_of_ok hd s ▸ he)
  | error e =>
    rw [accept_of_error hd] at he
    obtain rfl : _ = t := by simpa using he
    simp [raise]

end Sys2Proof.Machine
end

