-- ==== Sys2Proof/Tests/Slice0.lean ====
section
/-! SUPPORT. The model's own tests: small checks by evaluation against spec/95_test_vectors.md and the rules' examples,
and for every statement with hypotheses a state and operands that meet them. -/

namespace Sys2Proof.Machine.Tests

/-! ## Helpers -/

/-- A concrete configuration: F_CLK = 200 kHz, so GAP_CYCLES = 20. -/
def testCfg : Config where
  fClk := 200000
  gapSlack := 0
  t0h := 400
  t1h := 800
  openGlyphs := Vector.replicate 9 0x0000155#25
  outPin := 7
  base := some 0x1000

def testEncoder : LineEncoder where
  hold := 0
  holdFull := false
  shift := 0
  bits := 0
  sub := .start
  dout := false

/-- An idle block after INIT with every pixel 0x111111, and the clock's turn. -/
def idle : State where
  cfg := testCfg
  pix := Vector.replicate 25 0x111111#24
  initDone := true
  resp := 0x20000000#32
  rspPulse := false
  phase := .idle
  byteCnt := 0
  gapCnt := 19
  curOp := .none
  le := testEncoder
  env := { rstIn := [], host := [], sched := [], turn := .clock, draws := 1 }
  log := { trace := [.latch], line := [], reads := [] }

/-- The same before INIT. -/
def fresh : State := { idle with initDone := false, resp := 0 }

/-- `s` with one host act to come. -/
def doing (act : HostAct) (s : State) : State := { s with env := { s.env with host := [act] } }

/-- A frame of `idle`'s buffer under way: TX at byte `k`, with the first `k` bytes on the trace. -/
def sending (k : Fin 75) : State :=
  { idle with
    phase := .tx, byteCnt := k, curOp := .flush
    log := { idle.log with trace := .latch :: ((frameBytes idle.pix).take k.val).map .byte } }

/-- The gap of a frame of `idle`'s buffer by `owner`, at count `n`. -/
def gapAt (owner : CurOp) (n : Nat) : State :=
  { idle with
    phase := .gap, gapCnt := n, curOp := owner
    log := { idle.log with trace := .latch :: (frameBytes idle.pix).map .byte } }

/-- The post-reset gap at count `n`. -/
def postReset (n : Nat) : State :=
  { fresh with phase := .gap, gapCnt := n, log := { idle.log with trace := [] } }

/-- The line encoder's turn. -/
def leTurn (s : State) : State := { s with env := { s.env with sched := [.lineEncoder] } }

/-- `rst` = 1 at the coming edge. -/
def resetNext (s : State) : State := { s with env := { s.env with rstIn := [true] } }

/-- A field of the state after one step. -/
def after {α : Type} (f : State → α) (s : State) : Option α := (Result.state? (step s)).map f

/-! ## Decoding: words written out from the formats of 30_encoding.md -/

theorem test_decode_nop : decode 0b00000000000000000000000000000000#32 = .ok .nop := by decide
theorem test_decode_init : decode 0b00100000000000000000000000000000#32 = .ok .init := by decide
/-- R84's example: SETPX 0, 3, 7, 9 stores G = 7, R = 3, B = 9. -/
theorem test_decode_setpx : decode 0b01000000000001110000001100001001#32 = .ok (.setpx 0 7 3 9) := by decide
/-- 95_test_vectors 2.4: idx = 24, r = 255. -/
theorem test_decode_setpx_last : decode 0x5800FF00#32 = .ok (.setpx 24 0 255 0) := by decide
theorem test_decode_clear : decode 0b01100000000000000000000000000000#32 = .ok .clear := by decide
theorem test_decode_flush : decode 0b10000000000000000000000000000000#32 = .ok .flush := by decide
/-- R160's example: MAP 4, 1. -/
theorem test_decode_map : decode 0b10100000000000000000010000000001#32 = .ok (.map 4 1) := by decide
theorem test_decode_digit : decode 0b11000000000000000000000000001001#32 = .ok (.digit 9) := by decide
theorem test_reject_reserved_op : decode 0xE0000000#32 = .error .reservedOp := by decide
theorem test_reject_format_n : decode 0x90000000#32 = .error .reservedBits := by decide
theorem test_reject_format_c : decode 0xA0010000#32 = .error .reservedBits := by decide
theorem test_reject_format_d : decode 0xC0000100#32 = .error .reservedBits := by decide
theorem test_table_word : decodeTableWord 32 0xC0000009 = some (.digit 9) := by decide
/-- No two rows of R77's table overlap. -/
theorem test_rows_disjoint :
    opRows.Pairwise fun a b => (a.pattern ^^^ b.pattern) &&& (a.mask &&& b.mask) ≠ 0 := by decide

/-! ## Well-formedness: one ill-formed source line for each check of R83 and R85 -/

theorem smoke_setpx_idx : (Asm.setpx 32 0 0 0).wf = false := by decide
theorem smoke_setpx_r : (Asm.setpx 0 256 0 0).wf = false := by decide
theorem smoke_setpx_g : (Asm.setpx 0 0 256 0).wf = false := by decide
theorem smoke_setpx_b : (Asm.setpx 0 0 0 256).wf = false := by decide
theorem smoke_map_x : (Asm.map 256 0).wf = false := by decide
theorem smoke_map_y : (Asm.map 0 256).wf = false := by decide
theorem smoke_digit : (Asm.digit 256).wf = false := by decide
theorem smoke_word : (Asm.word 0x100000000).wf = false := by decide
theorem smoke_setxy_x : (Asm.setxy 5 0 0 0 0).wf = false := by decide
theorem smoke_setxy_y : (Asm.setxy 0 5 0 0 0).wf = false := by decide
theorem smoke_setxy_r : (Asm.setxy 0 0 256 0 0).wf = false := by decide
theorem smoke_setxy_g : (Asm.setxy 0 0 0 256 0).wf = false := by decide
theorem smoke_setxy_b : (Asm.setxy 0 0 0 0 256).wf = false := by decide
/-- Out-of-range operands are legal encodings (R79). -/
theorem smoke_out_of_range_is_legal : (Asm.setpx 31 255 255 255).wf = true := by decide
theorem smoke_every_instr : (Instr.setpx 31 255 255 255).wf = true := by decide

/-! ## One step: 95_test_vectors.md sections 2.1 to 2.9 and the examples of the rules -/

theorem test_nop_before_init :
    after (fun t => (t.resp, t.rspPulse, statusWord t)) (doing (.offer 0x00000000#32) fresh) =
      some (0x00000000#32, true, 0x00000000#32) := by decide
theorem test_init :
    after (fun t => (t.resp, statusWord t, t.pix[24])) (doing (.offer 0x20000000#32) fresh) =
      some (0x20000000#32, 0x00000001#32, 0x000000#24) := by decide
theorem test_second_init :
    after (fun t => (t.resp, t.pix[3])) (doing (.offer 0x20000000#32) idle) =
      some (0x20000003#32, 0x111111#24) := by decide
theorem test_setpx :
    after (fun t => (t.resp, t.pix[0], t.pix[1])) (doing (.offer 0x40070309#32) idle) =
      some (0x40000000#32, 0x070309#24, 0x111111#24) := by decide
theorem test_setpx_25 :
    after (fun t => (t.resp, t.pix[24])) (doing (.offer 0x59020103#32) idle) =
      some (0x40000001#32, 0x111111#24) := by decide
theorem test_clear :
    after (fun t => (t.resp, t.pix[0], t.log.trace)) (doing (.offer 0x60000000#32) idle) =
      some (0x60000000#32, 0x000000#24, [.latch]) := by decide
theorem test_clear_reserved_bit :
    after (fun t => (t.resp, t.pix[0])) (doing (.offer 0x60000001#32) idle) =
      some (0x60000005#32, 0x111111#24) := by decide
theorem test_flush :
    after (fun t => (t.resp, t.rspPulse, statusWord t)) (doing (.offer 0x80000000#32) idle) =
      some (0x20000000#32, false, 0x00000007#32) := by decide
theorem test_flush_before_init :
    after (fun t => (t.resp, t.phase)) (doing (.offer 0x80000000#32) fresh) =
      some (0x80000004#32, .idle) := by decide
/-- R160's example: RESULT 19. -/
theorem test_map_odd_row :
    after (·.resp) (doing (.offer 0xA0000401#32) idle) = some 0xA0001300#32 := by decide
theorem test_map_outside :
    after (·.resp) (doing (.offer 0xA0000005#32) idle) = some 0xA0000001#32 := by decide
/-- Section 2.8: the lit and dark pixels of digit 0. -/
theorem test_digit_zero :
    after (fun t => (t.pix[5], t.pix[6], t.pix[9], t.pix[18], t.phase, t.curOp)) (doing (.offer 0xC0000000#32) idle) =
      some (0x323232#24, 0x000000#24, 0x323232#24, 0x000000#24, .tx, .digit) := by decide
theorem test_digit_ten :
    after (fun t => (t.resp, t.pix[0], t.phase)) (doing (.offer 0xC000000A#32) idle) =
      some (0xC0000002#32, 0x111111#24, .idle) := by decide
/-- Vector D-26: the reserved bit beats INVALID_DIGIT. -/
theorem test_priority : after (·.resp) (doing (.offer 0xC000010A#32) idle) = some 0xC0000005#32 := by decide
/-- Vector D-27: the reserved OP beats NOT_INITIALIZED. -/
theorem test_priority_op : after (·.resp) (doing (.offer 0xE0000000#32) fresh) = some 0xE0000005#32 := by decide

theorem test_emit_last :
    after (fun t => (t.phase, t.byteCnt.val, t.le.hold)) (sending 74) = some (.drain, 74, 0x11#8) := by decide
theorem test_gap_end_flush :
    after (fun t => (t.phase, t.resp, t.rspPulse)) (gapAt .flush 19) = some (.idle, 0x80000000#32, true) := by decide
theorem test_gap_end_post_reset :
    after (fun t => (t.phase, t.resp, t.rspPulse, t.log.trace)) (postReset 19) =
      some (.idle, 0x00000000#32, false, [.latch]) := by decide
theorem test_gap_tick : after (fun t => (t.phase, t.gapCnt)) (postReset 18) = some (.gap, 19) := by decide
theorem test_status_after_reset : statusWord State.reset = 0x0000000E#32 := by decide
theorem test_reset_edge :
    after (fun t => (t.phase, t.curOp, t.gapCnt, statusWord t)) (resetNext (sending 10)) =
      some (.gap, .none, 0, 0x0000000E#32) := by decide
/-- 0x07 begins with a 0 bit: high for T0H (section 2.7). -/
theorem test_bit_period :
    after (fun t => (t.log.line, t.le.bits.val, t.le.shift))
      (leTurn { idle with phase := .drain, curOp := .flush, le := { testEncoder with shift := 0x07, bits := 8, sub := .low } }) =
      some ([⟨false, 400, 850⟩], 7, 0x0E#8) := by decide
/-- R141: the end of the last bit in TX with nothing held yields to the clock edge. -/
theorem test_refill_comes_first :
    mover (leTurn { sending 3 with le := { testEncoder with bits := 1, sub := .low } }) = .clock := by decide
theorem test_read_status : after (fun t => t.log.reads) (doing (.load 0x1008 4) idle) = some [0x00000001#32] := by decide
theorem test_write_cmd : after (·.resp) (doing (.store 0x1000 4 0xA0000401#32) idle) = some 0xA0001300#32 := by decide
theorem test_misaligned_read_stuck : after (·.resp) (doing (.load 0x1002 4) idle) = none := by decide
/-- R245: a pause, a read or an ignored write left over does not keep a run from being over; a command does. -/
theorem test_run_over : [HostAct.pause, .load 0x1004 4, .store 0x1008 4 1#32, .load 0x100C 4].map (fun act =>
    runOver (doing act idle)) = [true, true, true, true] ∧
    [HostAct.offer 0#32, .offerOnce 0#32, .store 0x1000 4 0#32].map (fun act => runOver (doing act idle)) =
      [false, false, false] := by decide
/-- Section 2.7: a reset in TX after 10 EMIT steps leaves 10 BYTE events (and the LATCH before them). -/
theorem test_reset_in_tx : after (fun t => (t.log.trace.length, t.phase)) (resetNext (sending 10)) = some (11, .gap) := by
  decide
/-- R244: bytes come off the end of the trace, and never a LATCH. -/
theorem test_bytes_taken_back : withoutLastBytes 2 [.byte 1, .latch, .byte 2, .byte 3, .byte 4] = [.byte 1, .latch, .byte 2] ∧
    withoutLastBytes 9 [.byte 1, .latch, .byte 2] = [.byte 1, .latch] := by decide
/-- Section 1.9: ceil(100 µs × F_CLK) at 50, 12 and 125 MHz. -/
theorem test_gap_bounds :
    [50000000, 12000000, 125000000].map (fun f => gapMin { testCfg with fClk := f }) = [5000, 1200, 12500] := by decide
/-- The first instruction after reset, placed as the pipeline's host places it. -/
theorem test_first_after_reset :
    after (fun t => (t.resp, t.rspPulse)) (State.reset.withFetchWord 32 0x20000000) = some (0x20000000#32, true) := by
  decide
/-- R85's example: SETXY 0, 0, 255, 0, 0 is SETPX 24, 255, 0, 0. -/
theorem test_asm_setxy : assemble (.setxy 0 0 255 0 0) = .ok [0x5800FF00#32] := by decide
theorem test_asm_blank : assemble .blank = .ok [0x60000000#32, 0x80000000#32] := by decide
theorem test_asm_text : assembleLine " SETPX 0, 3, 0x7, 9 ; pixel".toList = .ok [0x40070309#32] := by decide
theorem test_asm_text_lower_case : assembleLine "nop".toList = .error .unknownMnemonic := by decide

/-! ## Witnesses: a state and operands that meet the hypotheses of each statement -/

theorem idle_inv : Inv idle := by
  refine ⟨⟨by decide, by decide, by decide⟩, ?_, ⟨by decide, by decide, by decide⟩,
    ⟨by decide, by decide, by decide, by decide, by decide⟩, ?_⟩
  · unfold GapInv; decide
  · show openFrame _ = []; decide

theorem fresh_inv : Inv fresh := by
  refine ⟨⟨by decide, by decide, by decide⟩, ?_, ⟨by decide, by decide, by decide⟩,
    ⟨by decide, by decide, by decide, by decide, by decide⟩, ?_⟩
  · unfold GapInv; decide
  · show openFrame _ = []; decide

theorem sending_inv : Inv (sending 3) := by
  refine ⟨⟨by decide, by decide, by decide⟩, ?_, ⟨by decide, by decide, by decide⟩,
    ⟨by decide, by decide, by decide, by decide, by decide⟩, ?_⟩
  · unfold GapInv; decide
  · show openFrame _ = (frameBytes _).take _; decide

theorem gapAt_inv : Inv (gapAt .flush 19) := by
  refine ⟨⟨by decide, by decide, by decide⟩, ?_, ⟨by decide, by decide, by decide⟩,
    ⟨by decide, by decide, by decide, by decide, by decide⟩, ?_⟩
  · unfold GapInv; decide
  · intro _; show openFrame _ = frameBytes _; decide

theorem doing_accepts (c : Word) (s : State) (h : s = idle ∨ s = fresh) : acceptNext c (doing (.offer c) s) := by
  obtain rfl | rfl := h <;> exact ⟨⟨rfl, rfl⟩, rfl, rfl⟩

theorem witness_DecodeOfEncodeIsSame : (Instr.setpx 31 255 0 1).wf = true := rfl
theorem witness_EncodeOfDecodeIsSame : decode 0xA000FFFF#32 = .ok (.map 255 255) := by decide
theorem witness_MaskTableSelectsDecodedCommand : (⟨"MAP", 0xA0000000#32, 0xFFFF0000#32⟩ : OpRow) ∈ opRows := by decide
theorem witness_IllegalWordsCompleteWithoutEffect :
    decode 0xC0000100#32 = .error .reservedBits ∧ acceptNext 0xC0000100#32 (doing (.offer 0xC0000100#32) fresh) :=
  ⟨by decide, doing_accepts _ _ (.inr rfl)⟩
theorem witness_illegal_by_op_or_reserved_bit :
    opField 0xE0000000#32 = 0b111#3 ∧
    (opField 0x60000001#32 ∈ [0b000#3, 0b001#3, 0b011#3, 0b100#3] ∧ (0x60000001#32).extractLsb' 0 29 ≠ 0) ∧
    (opField 0xA0010000#32 = 0b101#3 ∧ (0xA0010000#32).extractLsb' 16 13 ≠ 0) ∧
    (opField 0xC0000100#32 = 0b110#3 ∧ (0xC0000100#32).extractLsb' 8 21 ≠ 0) := by decide
theorem witness_StepRunsDecodedCommand :
    acceptNext 0x80000000#32 (doing (.offer 0x80000000#32) idle) ∧ decode 0x80000000#32 = .ok .flush ∧
      Instr.flush.wf = true := ⟨doing_accepts _ _ (.inl rfl), by decide, rfl⟩
theorem witness_AcceptFollowsClassification :
    classify 0xC000000A#32 idle.initDone = some .invalidDigit ∧ classify 0xC0000009#32 idle.initDone = none := by decide
theorem witness_ErrorsHaveNoSideEffect :
    acceptNext 0x59000000#32 (doing (.offer 0x59000000#32) fresh) ∧
      classify 0x59000000#32 (doing (.offer 0x59000000#32) fresh).initDone = some .notInitialized :=
  ⟨doing_accepts _ _ (.inr rfl), by decide⟩
theorem witness_stuck_case_of_StepStopsOnlyWhenStuck :
    hostStuck (doing (.load 0x100C 4) idle) = true ∧
      after (·.phase) (doing (.load 0x100C 4) idle) = none := by decide
theorem witness_FirstInitClaimsAndZeroes : fresh.initDone = false := rfl
theorem witness_after_init : idle.initDone = true := rfl
theorem witness_SetpxWritesOnePixel : (24#5).toNat < 25 ∧ idle.initDone = true := by decide
theorem witness_SetpxOutOfRangeWritesNothing : 25 ≤ (25#5).toNat ∧ idle.initDone = true := by decide
theorem witness_MapAnswersSerpentineIndex : (4#8).toNat ≤ 4 ∧ (3#8).toNat ≤ 4 ∧ idle.initDone = true := by decide
theorem witness_MapOutsideTheGridFails : (5 ≤ (5#8).toNat ∨ 5 ≤ (0#8).toNat) ∧ idle.initDone = true := by decide
theorem witness_digit_in_range : (9#8).toNat < 10 ∧ idle.initDone = true := by decide
theorem witness_InvalidDigitChangesNothing : 10 ≤ (10#8).toNat ∧ idle.initDone = true := by decide
theorem witness_CommandsBeforeInitAreRefused :
    fresh.initDone = false ∧ Instr.digit 10 ≠ .nop ∧ Instr.digit 10 ≠ .init := by decide
theorem witness_CommandsBeforeInitAreRefused_others :
    Instr.setpx 25 1 2 3 ≠ .nop ∧ Instr.clear ≠ .init ∧ Instr.flush ≠ .nop ∧ Instr.map 5 5 ≠ .init := by decide
theorem witness_MapAnswersSerpentineIndex_even : (0#8).toNat ≤ 4 ∧ (4#8).toNat ≤ 4 ∧ (4#8).toNat % 2 = 0 := by decide
theorem witness_NopAndMapFrame : ∃ t, exec (.map 4 4) idle = .next t := ⟨_, rfl⟩
theorem witness_BufferCommandsFrame_setpx : ∃ t, exec (.setpx 24 1 2 3) idle = .next t ∧ (0 : Fin 25).val ≠ (24#5).toNat :=
  ⟨_, rfl, by decide⟩
theorem witness_BufferCommandsFrame_error :
    ∃ t, exec .init idle = .next t ∧ respCode t.resp ≠ 0#4 := ⟨_, rfl, by decide⟩
theorem witness_FrameCommandsFrame : ∃ t u, exec .flush idle = .next t ∧ exec (.digit 10) idle = .next u := ⟨_, _, rfl, rfl⟩
theorem witness_TxEdge_empty : edgeNext (sending 74) ∧ (sending 74).phase = .tx ∧ (sending 74).le.holdFull = false ∧
    (sending 74).byteCnt.val = 74 := ⟨⟨rfl, rfl⟩, rfl, rfl, rfl⟩
theorem witness_TxEdge_middle : edgeNext (sending 73) ∧ (sending 73).phase = .tx ∧ (sending 73).le.holdFull = false ∧
    (sending 73).byteCnt.val ≠ 74 := ⟨⟨rfl, rfl⟩, rfl, rfl, by decide⟩
theorem witness_TxEdge_full :
    edgeNext { sending 3 with le := { testEncoder with holdFull := true } } ∧
      ({ sending 3 with le := { testEncoder with holdFull := true } } : State).le.holdFull = true := ⟨⟨rfl, rfl⟩, rfl⟩
theorem witness_DrainEdge_idle :
    edgeNext { sending 74 with phase := .drain } ∧ (sending 74).le.holdFull = false ∧ (sending 74).le.bits = 0 :=
  ⟨⟨rfl, rfl⟩, rfl, rfl⟩
theorem witness_DrainEdge_busy :
    edgeNext { sending 74 with phase := .drain, le := { testEncoder with bits := 1 } } ∧
      ¬(testEncoder.holdFull = false ∧ ({ testEncoder with bits := 1 } : LineEncoder).bits = 0) :=
  ⟨⟨rfl, rfl⟩, by decide⟩
theorem witness_GapEdgeTicks : edgeNext (gapAt .digit 18) ∧ (gapAt .digit 18).phase = .gap ∧
    (gapAt .digit 18).gapCnt < gapCycles (gapAt .digit 18).cfg - 1 := ⟨⟨rfl, rfl⟩, rfl, by decide⟩
theorem witness_GapEndLatchesAndResponds (owner : CurOp) : edgeNext (gapAt owner 19) ∧ (gapAt owner 19).phase = .gap ∧
    (gapAt owner 19).gapCnt = gapCycles (gapAt owner 19).cfg - 1 ∧ (gapAt owner 19).curOp = owner :=
  ⟨⟨rfl, rfl⟩, rfl, (by decide : 19 = gapCycles testCfg - 1), rfl⟩
theorem witness_OfferWaitsWhileBusy : (doing (.offer 0#32) (sending 3)).phase ≠ .idle ∧
    (doing (.offer 0#32) (sending 3)).env.host = .offer 0#32 :: [] ∧ ∃ t, step (doing (.offer 0#32) (sending 3)) = .next t :=
  ⟨by decide, rfl, _, rfl⟩
theorem witness_OfferWaitsWhileBusy_cmd_write : (doing (.store 0x1000 4 9#32) (sending 3)).phase ≠ .idle ∧
    (doing (.store 0x1000 4 9#32) (sending 3)).cfg.base = some 0x1000 ∧
    ∃ t, step (doing (.store 0x1000 4 9#32) (sending 3)) = .next t := ⟨by decide, rfl, _, rfl⟩
theorem witness_PixChangesOnlyByCommands :
    after (fun t => decide (t.pix ≠ idle.pix)) (doing (.offer 0x60000000#32) idle) = some true := by decide
theorem witness_InitDone_set : acceptNext 0x20000000#32 (doing (.offer 0x20000000#32) fresh) ∧
    after (fun t => decide (t.initDone ≠ fresh.initDone)) (doing (.offer 0x20000000#32) fresh) = some true :=
  ⟨doing_accepts _ _ (.inr rfl), by decide⟩
theorem witness_InitDone_cleared : after (·.initDone) (resetNext idle) = some false ∧ idle.initDone = true := by decide
theorem witness_Idle_left : after (·.phase) (doing (.offer 0xC0000000#32) idle) = some .tx ∧ idle.phase = .idle := by decide
theorem witness_Idle_kept : let s := { idle with env := { idle.env with host := [.pause, .offer 0x80000000#32] } }
    edgeNext s ∧ s.phase = .idle ∧ offered s = none ∧ ∃ t, step s = .next t := ⟨⟨rfl, rfl⟩, rfl, rfl, _, rfl⟩
theorem witness_ResponsePulse_line_encoder : mover (leTurn { idle with rspPulse := true }) = .lineEncoder ∧
    after (·.rspPulse) (leTurn { idle with rspPulse := true }) = some true := by decide
theorem witness_ResponsePulse_accept : mover (doing (.offer 0#32) idle) = .clock ∧
    after (fun t => (t.rspPulse, decide (t.resp ≠ idle.resp))) (doing (.offer 0#32) idle) = some (true, true) := by decide
theorem witness_ResponsePulse_frame_start : mover (doing (.offer 0x80000000#32) idle) = .clock ∧
    after (fun t => (t.rspPulse, decide (t.phase = .idle))) (doing (.offer 0x80000000#32) idle) = some (false, false) := by
  decide
theorem witness_ResponsePulse_gap_end : mover (gapAt .digit 19) = .clock ∧ (gapAt .digit 19).curOp ≠ .none ∧
    after (·.rspPulse) (gapAt .digit 19) = some true := by decide
theorem witness_LineEncoder_load :
    mover (leTurn { sending 3 with le := { testEncoder with holdFull := true } }) = .lineEncoder := by decide
theorem witness_LineEncoder_idle : mover (leTurn idle) = .lineEncoder := by decide
theorem witness_LineEncoder_rise :
    mover (leTurn { sending 3 with le := { testEncoder with bits := 8 } }) = .lineEncoder ∧
      ({ testEncoder with bits := 8 } : LineEncoder).bits ≠ 0 := by decide
theorem witness_LineEncoder_fall :
    mover (leTurn { sending 3 with le := { testEncoder with bits := 8, sub := .high, dout := true } }) = .lineEncoder := by
  decide
theorem witness_LineEncoder_end_of_bit :
    mover (leTurn { sending 3 with le := { testEncoder with bits := 2, sub := .low } }) = .lineEncoder := by decide
theorem witness_LineEncoder_end_of_byte :
    mover (leTurn { sending 3 with le := { testEncoder with bits := 1, sub := .low, holdFull := true } }) = .lineEncoder := by
  decide
theorem witness_LineEncoder_end_of_last_byte :
    mover (leTurn { idle with phase := .drain, le := { testEncoder with bits := 1, sub := .low } }) = .lineEncoder := by
  decide
theorem witness_WireCarriesHandedOverBytes :
    Inv (sending 3) ∧ edgeNext (sending 3) ∧ ∃ t, step (sending 3) = .next t := ⟨sending_inv, ⟨rfl, rfl⟩, _, rfl⟩
theorem witness_NoUnderrunInTx :
    after (fun t => (decide ((sending 3).phase = .tx ∧ 100000 < (sending 3).cfg.fClk), t.le.bits))
      (resetNext { sending 3 with le := { testEncoder with bits := 1, sub := .low } }) = some (true, 0) := by decide
theorem witness_ResetEdgeWins : mover (resetNext (sending 3)) = .clock ∧ rstLevel (resetNext (sending 3)) = true := by
  decide
theorem witness_ResetEdgeWins_drain : mover (resetNext { gapAt .flush 0 with phase := .drain }) = .clock ∧
    rstLevel (resetNext { gapAt .flush 0 with phase := .drain }) = true := by decide
/-- A line-encoder move, and the edges of `testCfg`'s gap but the last. -/
def gapMoves : List Mover := .lineEncoder :: List.replicate 19 .clock
/-- `s` with a reset at the next edge, and moves until the end of the gap. -/
def cutNow (s : State) : State :=
  { s with env := { s.env with rstIn := [true], sched := .clock :: gapMoves ++ .clock :: [] } }
theorem draining_inv : Inv { gapAt .flush 0 with phase := .drain } := by
  refine ⟨⟨by decide, by decide, by decide⟩, ?_, ⟨by decide, by decide, by decide⟩,
    ⟨by decide, by decide, by decide, by decide, by decide⟩, ?_⟩
  · unfold GapInv; decide
  · show openFrame _ = frameBytes _; decide
theorem witness_ResetInFrameLeavesShortByteList_tx : Inv (cutNow (sending 3)) ∧ (cutNow (sending 3)).phase = .tx ∧
    (cutNow (sending 3)).env.rstIn = [true] ∧ gapMoves.count Mover.clock + 1 = gapCycles (cutNow (sending 3)).cfg ∧
    (cutNow (sending 3)).env.sched = .clock :: gapMoves ++ .clock :: [] :=
  ⟨sending_inv, rfl, rfl, by decide, rfl⟩
theorem witness_ResetInFrameLeavesShortByteList_drain : Inv (cutNow { gapAt .flush 0 with phase := .drain }) ∧
    (cutNow { gapAt .flush 0 with phase := .drain }).phase = .drain := ⟨draining_inv, rfl⟩
theorem witness_StepKeepsTheInvariant : Inv (sending 3) ∧ ∃ t, step (sending 3) = .next t := ⟨sending_inv, _, rfl⟩
theorem witness_LatchClosesTheFrameOfTheBuffer : Inv (gapAt .flush 19) ∧ (gapAt .flush 19).curOp ≠ .none ∧
    ∃ t, step (gapAt .flush 19) = .next t ∧ t.log.trace = (gapAt .flush 19).log.trace ++ [.latch] :=
  ⟨gapAt_inv, by decide, _, rfl, by decide⟩
theorem witness_StepKeepsWholeFrames : Inv idle ∧ WholeFrames idle ∧ rstLevel idle = false ∧ ∃ t, step idle = .next t :=
  ⟨idle_inv, ⟨by decide, by decide, by decide⟩, rfl, _, rfl⟩
theorem witness_BufferBeforeInitIsUnobservable : Inv fresh ∧ fresh.initDone = false ∧ ∃ t, step fresh = .next t :=
  ⟨fresh_inv, rfl, _, rfl⟩
theorem witness_RegisterMapAccesses : edgeNext (doing (.load 0x1008 4) idle) ∧
    (doing (.load 0x1008 4) idle).cfg.base = some 0x1000 ∧ (doing (.load 0x1008 4) idle).env.host = .load (0x1000 + 8) 4 :: [] :=
  ⟨⟨rfl, rfl⟩, rfl, rfl⟩
theorem witness_RegisterMapAccesses_store : edgeNext (doing (.store 0x1004 4 3#32) (sending 3)) ∧
    (doing (.store 0x1004 4 3#32) (sending 3)).env.host = .store (0x1000 + 4) 4 3#32 :: [] := ⟨⟨rfl, rfl⟩, rfl⟩
theorem witness_RegisterMapAccesses_other_loads (addr : Nat) (h : addr = 0x1000 ∨ addr = 0x1004) :
    edgeNext (doing (.load addr 4) idle) ∧ (doing (.load addr 4) idle).env.host = .load addr 4 :: [] := by
  obtain rfl | rfl := h <;> exact ⟨⟨rfl, rfl⟩, rfl⟩
theorem witness_RegisterMapAccesses_other_stores (addr : Nat) (h : addr = 0x1000 ∨ addr = 0x1008) :
    edgeNext (doing (.store addr 4 0#32) idle) ∧ (doing (.store addr 4 0#32) idle).phase = .idle ∧
      (doing (.store addr 4 0#32) idle).env.host = .store addr 4 0#32 :: [] := by
  obtain rfl | rfl := h <;> exact ⟨⟨rfl, rfl⟩, rfl, rfl⟩
theorem witness_RegisterMapAccesses_stalled_store : edgeNext (doing (.store 0x1000 4 9#32) (gapAt .flush 3)) ∧
    (doing (.store 0x1000 4 9#32) (gapAt .flush 3)).phase ≠ .idle ∧
    (doing (.store 0x1000 4 9#32) (gapAt .flush 3)).cfg.base = some 0x1000 := ⟨⟨rfl, rfl⟩, by decide, rfl⟩
theorem witness_UnadmittedAccessHasNoStep_address : (doing (.load 0x100C 4) (sending 3)).cfg.base = some 0x1000 ∧
    (0x100C ≠ 0x1000 ∧ 0x100C ≠ 0x1000 + 4 ∧ 0x100C ≠ 0x1000 + 8) ∧
    ∃ t, step (doing (.load 0x100C 4) (sending 3)) = .next t := ⟨rfl, by decide, _, rfl⟩
theorem witness_UnadmittedAccessHasNoStep : (doing (.store 0x1000 2 0#32) (sending 3)).cfg.base = some 0x1000 ∧ 2 ≠ 4 ∧
    ∃ t, step (doing (.store 0x1000 2 0#32) (sending 3)) = .next t := ⟨rfl, by decide, _, rfl⟩
theorem witness_AssembledSetpxDecodes : 31 < 32 ∧ 255 < 256 ∧ (32 ≤ 32 ∨ 256 ≤ 0) := by decide
theorem witness_AssembledCommandsDecode : 255 < 256 ∧ 0xFFFFFFFF < 2 ^ 32 ∧ (256 ≤ 256 ∨ 256 ≤ 0) ∧ 2 ^ 32 ≤ 0x100000000 := by
  simp
theorem witness_AssembledSetxyIsSetpxOfMap : 4 ≤ 4 ∧ 0 ≤ 4 ∧ 255 < 256 ∧ (5 ≤ 4 ∨ 5 ≤ 5) := by decide
theorem witness_AssembledTextDropsComments : ';' ∉ [' ', 'N', 'O', 'P'] ∧
    parseLine [' ', 'N', 'O', 'P'] = .ok (some .nop) ∧ ∀ ch ∈ [' ', '\t'], ch = ' ' ∨ ch = '\t' := by
  exact ⟨by decide, by decide, by simp⟩
theorem witness_RunThatIsOverKeepsItsResult : runOver (doing (.load 0x1008 4) idle) = true ∧
    rstLevel (doing (.load 0x1008 4) idle) = false ∧ ∃ t, step (doing (.load 0x1008 4) idle) = .next t := ⟨by decide, rfl, _, rfl⟩
theorem witness_GapEndsAfterGapCycles (owner : CurOp) :
    let moves : List Mover := [.lineEncoder, .clock, .lineEncoder, .lineEncoder, .clock]
    let s : State := { gapAt owner 17 with env := { idle.env with sched := moves ++ [Mover.clock] } }
    s.phase = .gap ∧ s.env.rstIn = [] ∧ s.gapCnt + moves.count Mover.clock + 1 = gapCycles s.cfg ∧
      s.env.sched = moves ++ Mover.clock :: [] :=
  ⟨rfl, rfl, (by decide : 17 + 2 + 1 = gapCycles testCfg), rfl⟩
theorem witness_FrameCommandsSendOneFrameAndComplete :
    let s := doing (.offer 0x80000000#32) idle
    Inv s ∧ s.phase = .idle ∧ s.initDone = true ∧ s.env.rstIn = [] ∧ s.env.host = [.offer 0x80000000#32] ∧
      decode 0x80000000#32 = .ok .flush := ⟨idle_inv, rfl, rfl, rfl, rfl, by decide⟩
theorem witness_FrameCommandsSendOneFrameAndComplete_digit :
    let s := doing (.offer 0xC0000009#32) idle
    Inv s ∧ s.env.host = [.offer 0xC0000009#32] ∧ decode 0xC0000009#32 = .ok (.digit 9) ∧ (9#8).toNat < 10 :=
  ⟨idle_inv, rfl, by decide, by decide⟩

end Sys2Proof.Machine.Tests
end

section
/-! PROOFS. What the block's state keeps: the invariant of R28 to R31, R136 and R140, the parameters (R32), INIT_DONE
and IDLE (R24, R28), and the words a reader sees of it (R26, R36). -/

namespace Sys2Proof.Machine

/- ## The invariant's parts -/

variable {s t : State}

/-- `FrameInv`, phase by phase. -/
theorem frameInv_of_idle (hp : s.phase = .idle) : FrameInv s ↔ openFrame s.log.trace = [] := by
  simp [FrameInv, hp]

theorem frameInv_of_tx (hp : s.phase = .tx) :
    FrameInv s ↔ openFrame s.log.trace = (frameBytes s.pix).take s.byteCnt.val := by
  simp [FrameInv, hp]

theorem frameInv_of_drain (hp : s.phase = .drain) :
    FrameInv s ↔ openFrame s.log.trace = frameBytes s.pix := by
  simp [FrameInv, hp]

theorem frameInv_of_gap (hp : s.phase = .gap) :
    FrameInv s ↔ (s.curOp ≠ .none → openFrame s.log.trace = frameBytes s.pix) := by
  simp [FrameInv, hp]

/-- Outside IDLE the pulse is down, so a move to any phase that leaves RESP and the pulse keeps `ResponseInv`. -/
theorem ResponseInv.of_busy (h : ResponseInv s) (hp : s.phase ≠ .idle) (hresp : t.resp = s.resp)
    (hpulse : t.rspPulse = s.rspPulse) : ResponseInv t := by
  obtain ⟨hhigh, hlow, hcode, hresult, hdown⟩ := h
  refine ⟨hresp ▸ hhigh, hresp ▸ hlow, hresp ▸ hcode, hresp ▸ hresult, fun ht => ?_⟩
  exact absurd (hdown (hpulse ▸ ht)) hp

/-- Every response in IDLE is laid out as R25 and R201 say, if only an OK MAP has a RESULT. -/
theorem responseInv_respond {op : Op} {code : Code} {result : BitVec 5} (hp : s.phase = .idle)
    (hmap : result ≠ 0 → op = 0b101#3 ∧ code = .ok) : ResponseInv (respond op code result s) := by
  obtain ⟨hhigh, hlow, hcode, hresult, hop⟩ := respWord_fields op code result
  refine ⟨hhigh, hlow, ?_, ?_, fun _ => hp⟩
  · rw [respond_resp, hcode]
    exact code.toBits_le
  · rw [respond_resp, hcode, hresult, hop]
    intro hr
    obtain ⟨rfl, rfl⟩ := hmap hr
    exact ⟨rfl, rfl⟩

/-- A load touches neither the place in the bit period nor the line (R139). -/
@[simp] theorem LineEncoder.loadIfReady_sub (le : LineEncoder) : le.loadIfReady.sub = le.sub := by
  obtain ⟨_, h⟩ | ⟨_, h⟩ := le.loadIfReady_cases <;> simp [h, LineEncoder.load]
@[simp] theorem LineEncoder.loadIfReady_dout (le : LineEncoder) : le.loadIfReady.dout = le.dout := by
  obtain ⟨_, h⟩ | ⟨_, h⟩ := le.loadIfReady_cases <;> simp [h, LineEncoder.load]
@[simp] theorem LineEncoder.dropBit_sub (le : LineEncoder) : le.dropBit.sub = .start := rfl
@[simp] theorem LineEncoder.dropBit_dout (le : LineEncoder) : le.dropBit.dout = le.dout := rfl

/-- A quiet line encoder does not move (R139). -/
theorem leMove_of_leIdle (hidle : leIdle s.le = true) (hsub : s.le.sub = .start) : leMove s = s := by
  obtain ⟨hfull, hbits⟩ := (leIdle_iff _).1 hidle
  simp [leMove, hsub, hbits, LineEncoder.loadIfReady, hfull]

/-- Every move of the line encoder keeps its part of the invariant (R139, R140). -/
theorem encoderInv_leMove (h : EncoderInv s) : EncoderInv (leMove s) := by
  obtain ⟨hdout, hbits, hquiet⟩ := h
  have hstill : s.phase = .gap ∨ s.phase = .idle → leIdle (leMove s).le = true := by
    intro hp
    have hidle := hquiet hp
    rwa [leMove_of_leIdle hidle (hbits ((leIdle_iff _).1 hidle).2)]
  have hbit : ((leMove s).le.dout = true ↔ (leMove s).le.sub = .high) ∧
      ((leMove s).le.bits = 0 → (leMove s).le.sub = .start) := by
    obtain ⟨hsub, _, heq⟩ | ⟨_, hleft, heq⟩ | ⟨hsub, heq⟩ | ⟨hsub, heq⟩ := leMove_cases s <;> rw [heq]
    · exact ⟨by simpa using hdout, by simp [hsub]⟩
    · exact ⟨by simp, fun h0 => absurd h0 hleft⟩
    · exact ⟨by simp, fun h0 => absurd (hbits h0) (by simp [hsub])⟩
    · exact ⟨by simpa [hsub] using hdout, by simp⟩
  exact ⟨hbit.1, hbit.2, by rwa [leMove_phase]⟩

/- ## The invariant under the environment's and the line encoder's moves -/

/-- The invariant does not read the environment or the values read. -/
@[simp] theorem inv_popRst : Inv (popRst s) ↔ Inv s := Iff.rfl
@[simp] theorem inv_popHost : Inv (popHost s) ↔ Inv s := Iff.rfl
@[simp] theorem inv_returnRead {v : Word} : Inv (returnRead v s) ↔ Inv s := Iff.rfl
@[simp] theorem inv_popMover : Inv (popMover s) ↔ Inv s := by
  unfold popMover
  split <;> exact Iff.rfl
@[simp] theorem inv_hostMove : Inv (hostMove s) ↔ Inv s := by
  obtain h | h | ⟨v, h⟩ := hostMove_cases s <;> simp [h]

/-- The pulse may fall at any time. -/
theorem inv_dropPulse (h : Inv s) : Inv (dropPulse s) := by
  obtain ⟨howner, hgap, henc, ⟨hhigh, hlow, hcode, hresult, _⟩, hframe⟩ := h
  exact ⟨howner, hgap, henc, ⟨hhigh, hlow, hcode, hresult, by simp⟩, hframe⟩

theorem inv_atAcceptance (h : Inv s) : Inv (atAcceptance s) :=
  inv_popHost.2 (inv_dropPulse (inv_popRst.2 (inv_popMover.2 h)))

theorem inv_leMove (h : Inv s) : Inv (leMove s) := by
  obtain ⟨howner, hgap, henc, hresp, hframe⟩ := h
  refine ⟨?_, ?_, encoderInv_leMove henc, ?_, ?_⟩
  · simpa [OwnerInv] using howner
  · simpa [GapInv] using hgap
  · simpa [ResponseInv] using hresp
  · simpa [FrameInv] using hframe

/- ## The invariant after reset -/

/-- The beginning of the post-reset gap meets the invariant, whatever PIX, LE_HOLD, LE_SHIFT and the trace are
(R36, R230). -/
theorem inv_of_postResetGap (hp : s.phase = .gap) (howner : s.curOp = .none) (hgap : s.gapCnt = 0) {draw : Nat}
    (hle : s.le = LineEncoder.afterReset draw) (hresp : s.resp = 0x00000000#32) (hpulse : s.rspPulse = false) :
    Inv s := by
  refine ⟨?_, ?_, ?_, ?_, ?_⟩
  · simp [OwnerInv, hp, howner]
  · simp [GapInv, hgap, gapCycles_pos]
  · simp [EncoderInv, hle, LineEncoder.afterReset, leIdle]
  · simp [ResponseInv, hresp, hpulse, respCode, respResult]
  · simp [frameInv_of_gap hp, howner]

theorem inv_resetBlock : Inv (resetBlock s) :=
  inv_of_postResetGap (by simp) (by simp) (by simp) (resetBlock_le s) (by simp) (by simp)

theorem inv_reset : Inv State.reset := inv_of_postResetGap rfl rfl rfl rfl rfl rfl

/- ## The invariant under acceptance -/

theorem inv_respond {op : Op} {code : Code} {result : BitVec 5} (h : Inv s) (hp : s.phase = .idle)
    (hmap : result ≠ 0 → op = 0b101#3 ∧ code = .ok) : Inv (respond op code result s) := by
  obtain ⟨howner, hgap, henc, _, hframe⟩ := h
  exact ⟨howner, hgap, henc, responseInv_respond hp hmap, hframe⟩

/-- In IDLE no frame is in progress, so the buffer is free to change. -/
theorem inv_withPix {p : Vector Pixel 25} (h : Inv s) (hp : s.phase = .idle) : Inv (withPix p s) := by
  obtain ⟨howner, hgap, henc, hresp, hframe⟩ := h
  exact ⟨howner, hgap, henc, hresp, (frameInv_of_idle (s := withPix p s) hp).2 ((frameInv_of_idle hp).1 hframe)⟩

theorem inv_claimChannel (h : Inv s) : Inv (claimChannel s) := by
  obtain ⟨⟨hnone, hsome, _⟩, hgap, henc, hresp, hframe⟩ := h
  exact ⟨⟨hnone, hsome, fun _ => rfl⟩, hgap, henc, hresp, hframe⟩

/-- Starting a frame in IDLE, after INIT, with the pulse down, keeps the invariant: none of the frame's bytes has been
handed over, and the open frame is empty (R130). -/
theorem inv_startFrame {owner : CurOp} (h : Inv s) (hp : s.phase = .idle) (hpulse : s.rspPulse = false)
    (hinit : s.initDone = true) (hsome : owner ≠ .none) : Inv (startFrame owner s) := by
  obtain ⟨_, _, ⟨hdout, hbits, _⟩, ⟨hhigh, hlow, hcode, hresult, _⟩, hframe⟩ := h
  refine ⟨?_, ?_, ⟨hdout, hbits, by simp⟩, ⟨hhigh, hlow, hcode, hresult, by simp [hpulse]⟩, ?_⟩
  · simp [OwnerInv, hsome, hinit]
  · simp [GapInv]
  · exact (frameInv_of_tx rfl).2 (by simpa using (frameInv_of_idle hp).1 hframe)

/-- Every command keeps the invariant at its acceptance (R100). -/
theorem inv_exec {i : Instr} (h : Inv s) (hp : s.phase = .idle) (hpulse : s.rspPulse = false)
    (he : exec i s = .next t) : Inv t := by
  obtain ⟨code, _, rfl⟩ | ⟨_, rfl⟩ | ⟨_, _, rfl⟩ | ⟨_, _, _, _, _, _, _, rfl⟩ | ⟨_, _, rfl⟩ | ⟨_, hinit, rfl⟩ |
    ⟨_, _, _, _, _, _, rfl⟩ | ⟨_, _, _, hinit, rfl⟩ := exec_cases he
  · exact inv_respond h hp (by simp)
  · exact inv_respond h hp (by simp)
  · exact inv_respond (inv_claimChannel (inv_withPix h hp)) hp (by simp)
  · exact inv_respond (inv_withPix h hp) hp (by simp)
  · exact inv_respond (inv_withPix h hp) hp (by simp)
  · exact inv_startFrame h hp hpulse hinit (by simp)
  · exact inv_respond h hp fun _ => ⟨rfl, rfl⟩
  · exact inv_startFrame (inv_withPix h hp) hp hpulse hinit (by simp)

/-- Everything acceptance can do: complete an illegal word at once, or run the command of a legal one (R78, R100). -/
theorem accept_cases {c : Word} (h : accept c s = .next t) :
    ((∃ e, decode c = .error e) ∧ t = raise (opField c) .illegalCommand s) ∨
    (∃ i, decode c = .ok i ∧ exec i s = .next t) := by
  cases hd : decode c with
  | ok i => exact .inr ⟨i, rfl, accept_of_ok hd s ▸ h⟩
  | error e =>
    rw [accept_of_error hd] at h
    exact .inl ⟨⟨e, rfl⟩, by simpa using h.symm⟩

theorem inv_accept {c : Word} (h : Inv s) (hp : s.phase = .idle) (hpulse : s.rspPulse = false)
    (ha : accept c s = .next t) : Inv t := by
  obtain ⟨_, rfl⟩ | ⟨i, _, he⟩ := accept_cases ha
  · exact inv_respond h hp (by simp)
  · exact inv_exec h hp hpulse he

/- ## The invariant under the sequencer's steps -/

/-- EMIT of byte 74 (R132): the open frame is now the whole frame. -/
theorem inv_emit_last (h : Inv s) (hp : s.phase = .tx) (hlast : s.byteCnt.val = 74) :
    Inv { emit (frameByte s.pix s.byteCnt) s with phase := .drain } := by
  obtain ⟨⟨_, hsome, hinit⟩, _, ⟨hdout, hbits, _⟩, hresp, hframe⟩ := h
  refine ⟨⟨by simp, fun _ => hsome (.inl hp), hinit⟩, by simp [GapInv], ⟨hdout, hbits, by simp⟩,
    hresp.of_busy (by simp [hp]) rfl rfl, ?_⟩
  refine (frameInv_of_drain rfl).2 ?_
  calc openFrame (s.log.trace ++ [.byte (frameByte s.pix s.byteCnt)])
      = (frameBytes s.pix).take (s.byteCnt.val + 1) := by
        rw [openFrame_byte, (frameInv_of_tx hp).1 hframe, frameBytes_take_succ]
    _ = frameBytes s.pix := List.take_of_length_le (by simp [hlast])

/-- EMIT of an earlier byte (R132): the open frame has one more byte of the buffer's frame. -/
theorem inv_emit_next (h : Inv s) (hp : s.phase = .tx) (hmore : s.byteCnt.val ≠ 74) :
    Inv { emit (frameByte s.pix s.byteCnt) s with byteCnt := ⟨s.byteCnt.val + 1, by omega⟩ } := by
  obtain ⟨howner, hgap, ⟨hdout, hbits, _⟩, hresp, hframe⟩ := h
  refine ⟨howner, hgap, ⟨hdout, hbits, by simp [hp]⟩, hresp, ?_⟩
  simp [frameInv_of_tx, hp, (frameInv_of_tx hp).1 hframe, frameBytes_take_succ]

/-- DRAIN_DONE (R133): the gap begins with the line encoder idle and the frame whole. -/
theorem inv_drainDone (h : Inv s) (hp : s.phase = .drain) (hidle : leIdle s.le = true) :
    Inv { s with phase := .gap, gapCnt := 0 } := by
  obtain ⟨⟨_, _, hinit⟩, _, ⟨hdout, hbits, _⟩, hresp, hframe⟩ := h
  exact ⟨⟨by simp, by simp, hinit⟩, fun _ => gapCycles_pos _, ⟨hdout, hbits, fun _ => hidle⟩,
    hresp.of_busy (by simp [hp]) rfl rfl, (frameInv_of_gap rfl).2 fun _ => (frameInv_of_drain hp).1 hframe⟩

/-- A tick of the gap (R134). -/
theorem inv_gapTick (h : Inv s) (hlt : s.gapCnt < gapCycles s.cfg - 1) :
    Inv { s with gapCnt := s.gapCnt + 1 } := by
  obtain ⟨howner, _, henc, hresp, hframe⟩ := h
  exact ⟨howner, fun _ => Nat.add_lt_of_lt_sub hlt, henc, hresp, hframe⟩

/-- What a finished gap responds to its owner, if it has one, is laid out as specified (R135). -/
theorem responseInv_respondOwner (owner : CurOp) (h : ResponseInv s) (hp : s.phase = .idle) :
    ResponseInv (respondOwner owner s) := by
  cases owner with
  | none => exact h
  | flush => exact responseInv_respond hp (by simp)
  | digit => exact responseInv_respond hp (by simp)

theorem responseInv_gapEnd (h : ResponseInv s) (hp : s.phase = .gap) : ResponseInv (gapEnd s) :=
  have hlatched : ResponseInv (latch { s with phase := .idle }) := h.of_busy (by simp [hp]) rfl rfl
  responseInv_respondOwner s.curOp hlatched rfl

/-- GAP_END (R135): the LATCH closes the frame, and nobody owns the block any more. -/
theorem inv_gapEnd (h : Inv s) (hp : s.phase = .gap) : Inv (gapEnd s) := by
  obtain ⟨_, _, ⟨hdout, hbits, hquiet⟩, hresp, _⟩ := h
  refine ⟨by simp [OwnerInv], by simp [GapInv], ?_, responseInv_gapEnd hresp hp, by simp [frameInv_of_idle]⟩
  rw [EncoderInv, gapEnd_le]
  exact ⟨hdout, hbits, fun _ => hquiet (.inl hp)⟩

/-- Every step of the sequencer keeps the invariant (R132 to R135). -/
theorem inv_sequencerEdge (h : Inv s) : Inv (sequencerEdge s) := by
  obtain heq | ⟨hp, _, hlast, heq⟩ | ⟨hp, _, hmore, heq⟩ | ⟨hp, hidle, heq⟩ | ⟨_, hlt, heq⟩ | ⟨hp, _, heq⟩ :=
    sequencerEdge_cases s <;> rw [heq]
  · exact h
  · exact inv_emit_last h hp hlast
  · exact inv_emit_next h hp hmore
  · exact inv_drainDone h hp ((leIdle_iff _).2 hidle)
  · exact inv_gapTick h hlt
  · exact inv_gapEnd h hp

/-- Settles O44: each of the four things a step can be, a move of the line encoder, a reset edge, an acceptance or an
edge of host and sequencer, keeps the invariant. -/
theorem stepKeepsTheInvariant : Obligations.StepKeepsTheInvariant := by
  intro s t h hstep
  obtain ⟨_, rfl⟩ | ⟨_, _, rfl⟩ | ⟨c, ⟨_, hp, _⟩, ha⟩ | ⟨_, _, rfl⟩ := step_cases hstep
  · exact inv_leMove (inv_popMover.2 h)
  · exact inv_resetBlock
  · exact inv_accept (inv_atAcceptance h) (by simpa using hp) (by simp) ha
  · exact inv_sequencerEdge (inv_hostMove.2 (inv_dropPulse (inv_popRst.2 (inv_popMover.2 h))))

/-- Settles O43: the post-reset gap has just begun, and nothing is on the trace. -/
theorem resetMeetsTheInvariant : Obligations.ResetMeetsTheInvariant := by
  have htrace : State.reset.log.trace = [] := rfl
  exact ⟨inv_reset, by simp [htrace, closedFrames, cutTrace], by simp [htrace, closedFrames, cutTrace],
    fun _ _ => htrace⟩

/- ## The parameters -/

theorem step_cfg (h : step s = .next t) : t.cfg = s.cfg := by
  obtain ⟨_, rfl⟩ | ⟨_, _, rfl⟩ | ⟨c, _, ha⟩ | ⟨_, _, rfl⟩ := step_cases h
  · simp
  · simp
  · obtain ⟨_, hcfg, _, _⟩ := accept_keeps ha
    simpa using hcfg
  · obtain ⟨_, _, hcfg, _⟩ := sequencerEdge_keeps (hostMove (dropPulse (popRst (popMover s))))
    simpa using hcfg

/-- Settles O48: GLYPH_ROM is read from the parameters alone. -/
theorem stepKeepsTheParameters : Obligations.StepKeepsTheParameters :=
  fun _ _ h => ⟨step_cfg h, fun d => by rw [step_cfg h]⟩

/- ## INIT_DONE and IDLE -/

/-- Acceptance changes INIT_DONE only where it runs the first INIT, and that completes with OK (R102). -/
theorem accept_initDone {c : Word} (h : accept c s = .next t) :
    t.initDone = s.initDone ∨
    (decode c = .ok .init ∧ s.initDone = false ∧ t.initDone = true ∧ respCode t.resp = 0#4) := by
  obtain ⟨_, rfl⟩ | ⟨i, hd, he⟩ := accept_cases h
  · exact .inl rfl
  obtain ⟨_, _, hcode, _, _⟩ := respWord_fields 0b001#3 .ok 0
  obtain ⟨_, _, rfl⟩ | ⟨_, rfl⟩ | ⟨rfl, hinit, rfl⟩ | ⟨_, _, _, _, _, _, _, rfl⟩ | ⟨_, _, rfl⟩ | ⟨_, _, rfl⟩ |
    ⟨_, _, _, _, _, _, rfl⟩ | ⟨_, _, _, _, rfl⟩ := exec_cases he
  · exact .inl rfl
  · exact .inl rfl
  · exact .inr ⟨hd, hinit, rfl, hcode⟩
  all_goals exact .inl rfl

/-- Acceptance leaves PHASE, but that a FLUSH or a valid DIGIT after INIT starts its frame (R130, R184). -/
theorem accept_phase {c : Word} (h : accept c s = .next t) :
    t.phase = s.phase ∨
    (s.initDone = true ∧ t.phase = .tx ∧
      (decode c = .ok .flush ∨ ∃ d : Byte, d.toNat < 10 ∧ decode c = .ok (.digit d))) := by
  obtain ⟨_, rfl⟩ | ⟨i, hd, he⟩ := accept_cases h
  · exact .inl rfl
  obtain ⟨_, _, rfl⟩ | ⟨_, rfl⟩ | ⟨_, _, rfl⟩ | ⟨_, _, _, _, _, _, _, rfl⟩ | ⟨_, _, rfl⟩ | ⟨rfl, hinit, rfl⟩ |
    ⟨_, _, _, _, _, _, rfl⟩ | ⟨d, hlt, rfl, hinit, rfl⟩ := exec_cases he
  · exact .inl rfl
  · exact .inl rfl
  · exact .inl rfl
  · exact .inl rfl
  · exact .inl rfl
  · exact .inr ⟨hinit, rfl, .inl hd⟩
  · exact .inl rfl
  · exact .inr ⟨hinit, rfl, .inr ⟨d, hlt, hd⟩⟩

/-- The classification of R82 passes every FLUSH after INIT, and every DIGIT of a digit below 10. -/
theorem classify_of_flush {c : Word} (hd : decode c = .ok .flush) : classify c true = none := by
  have hfields := decode_cases hd
  simp only [reduceCtorEq, false_and, false_or, or_false, true_and] at hfields
  obtain ⟨hop, hres⟩ := hfields
  simp [classify, hop, hres]

theorem classify_of_digit {c : Word} {d : Byte} (hd : decode c = .ok (.digit d)) (hlt : d.toNat < 10) :
    classify c true = none := by
  have hfields := decode_cases hd
  simp only [reduceCtorEq, false_and, false_or, Instr.digit.injEq] at hfields
  obtain ⟨rfl, hop, hres⟩ := hfields
  simp [classify, hop, hres, hlt]

/-- In IDLE the sequencer stands still (R100). -/
theorem sequencerEdge_of_idle (hp : s.phase = .idle) : sequencerEdge s = s := by simp [sequencerEdge, hp]

/-- What a step that changes INIT_DONE is. -/
theorem step_changes_initDone (h : step s = .next t) (hne : t.initDone ≠ s.initDone) : mover s = .clock ∧
    ((rstLevel s = true ∧ t.initDone = false) ∨
      ∃ c, acceptNext c s ∧ decode c = .ok .init ∧ s.initDone = false ∧ t.initDone = true ∧
        respCode t.resp = 0#4) := by
  obtain ⟨_, rfl⟩ | ⟨hm, hr, rfl⟩ | ⟨c, ⟨⟨hm, hr⟩, hidle, ho⟩, ha⟩ | ⟨_, _, rfl⟩ := step_cases h
  · exact absurd (by simp) hne
  · exact ⟨hm, .inl ⟨hr, by simp⟩⟩
  · obtain hsame | ⟨hd, hinit, hset, hcode⟩ := accept_initDone ha
    · exact absurd (by simpa using hsame) hne
    · exact ⟨hm, .inr ⟨c, ⟨⟨hm, hr⟩, hidle, ho⟩, hd, by simpa using hinit, hset, hcode⟩⟩
  · obtain ⟨_, hsame, _⟩ := sequencerEdge_keeps (hostMove (dropPulse (popRst (popMover s))))
    exact absurd (by simpa using hsame) hne

/-- What a step that leaves IDLE is. -/
theorem step_leaves_idle (h : step s = .next t) (hp : s.phase = .idle) (hne : t.phase ≠ .idle) : mover s = .clock ∧
    ((rstLevel s = true ∧ t.phase = .gap) ∨
      ∃ (c : Word) (i : Instr), acceptNext c s ∧ decode c = .ok i ∧ classify c s.initDone = none ∧
        (i = .flush ∨ ∃ d, i = .digit d) ∧ t.phase = .tx) := by
  obtain ⟨_, rfl⟩ | ⟨hm, hr, rfl⟩ | ⟨c, ⟨⟨hm, hr⟩, hidle, ho⟩, ha⟩ | ⟨_, _, rfl⟩ := step_cases h
  · exact absurd (by simpa using hp) hne
  · exact ⟨hm, .inl ⟨hr, by simp⟩⟩
  · obtain hsame | ⟨hinit, htx, hd⟩ := accept_phase ha
    · exact absurd (by simpa [hp] using hsame) hne
    rw [atAcceptance_initDone] at hinit
    rw [hinit]
    obtain hd | ⟨d, hlt, hd⟩ := hd
    · exact ⟨hm, .inr ⟨c, _, ⟨⟨hm, hr⟩, hidle, ho⟩, hd, classify_of_flush hd, .inl rfl, htx⟩⟩
    · exact ⟨hm, .inr ⟨c, _, ⟨⟨hm, hr⟩, hidle, ho⟩, hd, classify_of_digit hd hlt, .inr ⟨d, rfl⟩, htx⟩⟩
  · rw [sequencerEdge_of_idle (by simpa using hp)] at hne
    exact absurd (by simpa using hp) hne

/-- An edge in IDLE with `rst` = 0 and nothing offered is the host's move alone. -/
theorem step_of_quietIdle (h : step s = .next t) (hedge : edgeNext s) (hp : s.phase = .idle)
    (ho : offered s = none) : t = hostMove (dropPulse (popRst (popMover s))) := by
  obtain ⟨hm, hr⟩ := hedge
  obtain ⟨hm', _⟩ | ⟨_, hr', _⟩ | ⟨c, ⟨_, _, ho'⟩, _⟩ | ⟨_, _, ht⟩ := step_cases h
  · simp [hm] at hm'
  · simp [hr] at hr'
  · simp [ho] at ho'
  · rw [ht, sequencerEdge_of_idle (by simpa using hp)]

/-- Settles O60: the two questions of what a step changed, and the quiet edge, on which the sequencer stands still. -/
theorem initDoneAndIdleChangeOnlyByCommandsOrReset : Obligations.InitDoneAndIdleChangeOnlyByCommandsOrReset := by
  intro s t h
  refine ⟨step_changes_initDone h, step_leaves_idle h, fun hedge hp ho => ?_⟩
  rw [step_of_quietIdle h hedge hp ho]
  simp [hp]

/- ## What a reader sees -/

theorem statusWord_reset : statusWord State.reset = 0x0000000E#32 := by decide

/-- Settles O41: every value is written out in `State.reset`, whatever the platform's parameters are. -/
theorem resetStateValues : Obligations.ResetStateValues :=
  ⟨rfl, rfl, rfl, rfl, rfl, rfl, rfl, rfl, rfl, rfl, rfl, statusWord_reset, rfl, rfl⟩

/-- The fields of the STATUS word (R26). -/
theorem statusWord_fields (s : State) :
    (statusWord s).getLsbD 0 = s.initDone ∧ (statusWord s).getLsbD 1 = busy s ∧
    (statusWord s).extractLsb' 2 2 = s.phase.toBits ∧ (statusWord s).extractLsb' 4 28 = 0#28 := by
  refine ⟨?_, ?_, ?_, ?_⟩
  · simp only [statusWord, BitVec.getLsbD_append]
    simp
  · simp only [statusWord, BitVec.getLsbD_append]
    simp
  · ext k hk
    simp only [statusWord, BitVec.getElem_extractLsb', BitVec.getLsbD_append]
    interval_cases k <;> simp
  · ext k hk
    simp only [statusWord, BitVec.getElem_extractLsb', BitVec.getLsbD_append]
    interval_cases k <;> simp

/-- Settles O49, with the numbers of the phases as R28 gives them. -/
theorem statusWordFields : Obligations.StatusWordFields := by
  refine ⟨statusWord_reset, fun s => ?_⟩
  obtain ⟨hinit, hbusy, hphase, hzero⟩ := statusWord_fields s
  refine ⟨hinit, ?_, ?_, ?_, hzero⟩
  · rw [hbusy]
    simp [busy]
  · rw [hbusy]
    simp [busy, cmdReady]
  · rw [hphase]
    cases s.phase <;> rfl

end Sys2Proof.Machine
end

section
/-! PROOFS. The host's accesses to the register map (R54, R56, R57), admitted or not, and where a step can stop
(R200). -/

namespace Sys2Proof.Machine

variable {s t : State} {addr size : Nat} {rest : List HostAct}

/- ## A step goes on, or the machine is stuck -/

/-- The INIT gate goes on when what it guards does. -/
theorem requireInit_goesOn {op : Op} {k : State → Result} (hk : ∃ t, k s = .next t) :
    ∃ t, requireInit op s k = .next t := by
  cases hinit : s.initDone with
  | false => exact ⟨_, requireInit_of_not_done hinit⟩
  | true => rwa [requireInit_of_done hinit]

/-- No command faults or refuses: an error is a completion code (R200). -/
theorem exec_goesOn (i : Instr) (s : State) : ∃ t, exec i s = .next t := by
  cases i with
  | nop => exact ⟨_, rfl⟩
  | init =>
    simp only [exec, execInit]
    split <;> exact ⟨_, rfl⟩
  | setpx idx g r b =>
    simp only [exec, execSetpx]
    apply requireInit_goesOn
    split <;> exact ⟨_, rfl⟩
  | clear =>
    simp only [exec, execClear]
    exact requireInit_goesOn ⟨_, rfl⟩
  | flush =>
    simp only [exec, execFlush]
    exact requireInit_goesOn ⟨_, rfl⟩
  | map x y =>
    simp only [exec, execMap]
    apply requireInit_goesOn
    split <;> exact ⟨_, rfl⟩
  | digit d =>
    simp only [exec, execDigit]
    apply requireInit_goesOn
    split <;> exact ⟨_, rfl⟩

theorem accept_goesOn (c : Word) (s : State) : ∃ t, accept c s = .next t := by
  cases hd : decode c with
  | ok i => simpa only [accept_of_ok hd] using exec_goesOn i s
  | error e => exact ⟨_, accept_of_error hd s⟩

theorem runEdge_goesOn (s : State) : ∃ t, runEdge s = .next t := by
  unfold runEdge
  split
  · exact accept_goesOn _ _
  · exact ⟨_, rfl⟩

/-- The machine is stuck after the level of `rst` at this edge is used up: X5, read off the state before the step. -/
theorem machineStuck_atEdge : machineStuck (popRst (popMover s)) = true ↔
    hostStuck s = true ∧ s.phase = .idle ∧ s.rspPulse = false ∧ s.env.rstIn.tail = [] := by
  simp [machineStuck, quiescent, rspValid, and_assoc]

/-- An edge with `rst` = 0 faults where the machine is stuck (log 7), and runs where it is not. -/
theorem step_of_machineStuck (h : edgeNext s) (hs : machineStuck (popRst (popMover s)) = true) :
    step s = .fault .accessNotAdmitted := by
  obtain ⟨hm, hr⟩ := h
  simp [step, hm, clockEdge, hr, hs]

theorem step_of_not_machineStuck (h : edgeNext s) (hs : machineStuck (popRst (popMover s)) = false) :
    step s = runEdge (popRst (popMover s)) := by
  obtain ⟨hm, hr⟩ := h
  simp [step, hm, clockEdge, hr, hs]

/-- Settles O9: moves of the line encoder and reset edges go on, and so does every other edge, since acceptance always
completes or starts a frame; the stuck machine is the one exception. -/
theorem stepStopsOnlyWhenStuck : Obligations.StepStopsOnlyWhenStuck := by
  intro s
  cases hm : mover s with
  | lineEncoder => exact .inl ⟨_, step_of_lineEncoder hm⟩
  | clock =>
    cases hr : rstLevel s with
    | true => exact .inl ⟨_, step_of_reset hm hr⟩
    | false =>
      cases hs : machineStuck (popRst (popMover s)) with
      | true =>
        obtain ⟨hstuck, hp, hpulse, hrst⟩ := machineStuck_atEdge.1 hs
        exact .inr ⟨rfl, rfl, hstuck, hp, hpulse, hrst, step_of_machineStuck ⟨hm, hr⟩ hs⟩
      | false =>
        rw [step_of_not_machineStuck ⟨hm, hr⟩ hs]
        exact .inl (runEdge_goesOn _)

/- ## An access that is not admitted -/

@[simp] theorem hostStuck_dropPulse : hostStuck (dropPulse s) = hostStuck s := rfl

/-- An access of another width, or at another address than the three, names no register (R54, R57). -/
theorem mapReg_of_not_admitted {cfg : Config} {base : Nat} (hb : cfg.base = some base)
    (h : size ≠ 4 ∨ (addr ≠ base ∧ addr ≠ base + 4 ∧ addr ≠ base + 8)) : mapReg cfg addr size = none := by
  obtain hsize | ⟨hcmd, hresp, hstatus⟩ := h
  · simp [mapReg, hb, hsize]
  · simp [mapReg, hb, hcmd, hresp, hstatus]

/-- The host is stuck at an access exactly when the access names no register (R54). -/
theorem hostStuck_of_load (hh : s.env.host = .load addr size :: rest) :
    hostStuck s = decide (mapReg s.cfg addr size = none) := by simp [hostStuck, hh]

theorem hostStuck_of_store {v : Word} (hh : s.env.host = .store addr size v :: rest) :
    hostStuck s = decide (mapReg s.cfg addr size = none) := by simp [hostStuck, hh]

/-- A stuck host offers nothing and makes no move (R54). -/
theorem offered_of_hostStuck (h : hostStuck s = true) : offered s = none := by
  cases ho : offered s with
  | none => rfl
  | some c => simp [hostStuck_of_offered ho] at h

theorem hostMove_of_hostStuck (h : hostStuck s = true) : hostMove s = s := by
  unfold hostStuck at h
  split at h
  · simp_all [hostMove]
  · simp_all [hostMove]
  · simp at h

/-- A step that goes on leaves a stuck host where it stands, and returns nothing to it (R54). -/
theorem step_of_hostStuck (hs : hostStuck s = true) (h : step s = .next t) :
    t.env.host = s.env.host ∧ t.log.reads = s.log.reads := by
  obtain ⟨_, rfl⟩ | ⟨_, _, rfl⟩ | ⟨c, ⟨_, _, ho⟩, _⟩ | ⟨_, _, rfl⟩ := step_cases h
  · simp
  · simp
  · simp [offered_of_hostStuck hs] at ho
  · rw [hostMove_of_hostStuck (by simpa using hs)]
    obtain ⟨_, _, _, henv, _, hreads⟩ := sequencerEdge_keeps (dropPulse (popRst (popMover s)))
    simp [henv, hreads]

/-- Settles O51: such an access names no register, so the host is stuck at it, and stays so. -/
theorem unadmittedAccessHasNoStep : Obligations.UnadmittedAccessHasNoStep := by
  intro s t base addr size rest hb hbad hh hstep
  have hnone : mapReg s.cfg addr size = none := mapReg_of_not_admitted hb hbad
  have hs : hostStuck s = true := by
    obtain hh | ⟨v, hh⟩ := hh
    · simp [hostStuck_of_load hh, hnone]
    · simp [hostStuck_of_store hh, hnone]
  obtain ⟨hhost, hreads⟩ := step_of_hostStuck hs hstep
  refine ⟨hhost, hreads, ?_⟩
  calc offered t = offered s := by simp [offered, hhost, step_cfg hstep]
    _ = none := offered_of_hostStuck hs

/- ## Admitted accesses -/

/-- A read at an edge with `rst` = 0 is over at that edge, with the values before it (R57, R238; log 4). -/
theorem step_of_load {r : MapReg} (h : edgeNext s) (hh : s.env.host = .load addr size :: rest)
    (hm : mapReg s.cfg addr size = some r) :
    step s = .next (sequencerEdge (popHost (returnRead (readMapReg s r) (dropPulse (popRst (popMover s)))))) := by
  have hread : readMapReg (dropPulse (popRst (popMover s))) r = readMapReg s r := by
    cases r <;> simp [readMapReg, statusWord, busy]
  rw [step_of_quietEdge h (by simp [offered_of_host hh]) (by simp [hostStuck_of_load hh, hm])]
  simp [hostMove, hh, hm, hread]

/-- A write to RESP or STATUS at an edge with `rst` = 0 is over at that edge, and ignored (R57; log 4). -/
theorem step_of_ignoredStore {v : Word} (h : edgeNext s) (hh : s.env.host = .store addr size v :: rest)
    (hm : mapReg s.cfg addr size = some .resp ∨ mapReg s.cfg addr size = some .status) :
    step s = .next (sequencerEdge (popHost (dropPulse (popRst (popMover s))))) := by
  obtain hm | hm := hm <;>
  · rw [step_of_quietEdge h (by simp [offered_of_host hh, HostAct.commandWord, hm])
      (by simp [hostStuck_of_store hh, hm])]
    simp [hostMove, hh, hm]

/-- A write to CMD outside IDLE stalls (R57). -/
theorem step_of_stalledStore {v : Word} (h : edgeNext s) (hp : s.phase ≠ .idle)
    (hh : s.env.host = .store addr size v :: rest) (hm : mapReg s.cfg addr size = some .cmd) :
    step s = .next (sequencerEdge (dropPulse (popRst (popMover s)))) := by
  rw [step_of_busyEdge h hp, hostMove_of_held (by simpa using hh) (.inr ⟨addr, size, v, rfl, by simpa using hm⟩)]

/-- A write to CMD in IDLE is the acceptance of its value, as the same word offered on the port (R57). -/
theorem step_of_acceptedStore {v : Word} (h : edgeNext s) (hp : s.phase = .idle)
    (hh : s.env.host = .store addr size v :: rest) (hm : mapReg s.cfg addr size = some .cmd) :
    step s = accept v (atAcceptance s) :=
  step_of_acceptNext ⟨h, hp, by simp [offered_of_host hh, hm]⟩

/-- A read returns the register's value to the host and has no side effect on an idle block (R56, R57). -/
theorem load_returns {r : MapReg} (h : edgeNext s) (hh : s.env.host = .load addr size :: rest)
    (hm : mapReg s.cfg addr size = some r) :
    ∃ t, step s = .next t ∧ t.log.reads = s.log.reads ++ [readMapReg s r] ∧ t.env.host = rest ∧
      (s.phase = .idle → t.pix = s.pix ∧ t.initDone = s.initDone ∧ t.resp = s.resp ∧ t.phase = .idle) := by
  refine ⟨_, step_of_load h hh hm, ?_⟩
  obtain ⟨_, _, _, henv, _, hreads⟩ :=
    sequencerEdge_keeps (popHost (returnRead (readMapReg s r) (dropPulse (popRst (popMover s)))))
  exact ⟨by simp [hreads], by simp [henv, hh], fun hp => by simp [sequencerEdge_of_idle, hp]⟩

/-- A write to RESP or STATUS returns nothing and has no side effect on an idle block (R57). -/
theorem ignoredStore_changes_nothing {v : Word} (h : edgeNext s) (hh : s.env.host = .store addr size v :: rest)
    (hm : mapReg s.cfg addr size = some .resp ∨ mapReg s.cfg addr size = some .status) :
    ∃ t, step s = .next t ∧ t.log.reads = s.log.reads ∧ t.env.host = rest ∧
      (s.phase = .idle → t.pix = s.pix ∧ t.initDone = s.initDone ∧ t.resp = s.resp ∧ t.phase = .idle) := by
  refine ⟨_, step_of_ignoredStore h hh hm, ?_⟩
  obtain ⟨_, _, _, henv, _, hreads⟩ := sequencerEdge_keeps (popHost (dropPulse (popRst (popMover s))))
  exact ⟨by simp [hreads], by simp [henv, hh], fun hp => by simp [sequencerEdge_of_idle, hp]⟩

/-- A stalled write to CMD stays the host's next act, and returns nothing (R57, R236). -/
theorem stalledStore_waits {v : Word} (h : edgeNext s) (hp : s.phase ≠ .idle)
    (hh : s.env.host = .store addr size v :: rest) (hm : mapReg s.cfg addr size = some .cmd) :
    ∃ t, step s = .next t ∧ t.log.reads = s.log.reads ∧ t.env.host = .store addr size v :: rest := by
  refine ⟨_, step_of_stalledStore h hp hh hm, ?_⟩
  obtain ⟨_, _, _, henv, _, hreads⟩ := sequencerEdge_keeps (dropPulse (popRst (popMover s)))
  exact ⟨by simp [hreads], by simp [henv, hh]⟩

/-- Settles O50: each address is one register of the map, and each access to a register is one of the four above. -/
theorem registerMapAccesses : Obligations.RegisterMapAccesses := by
  intro s base act rest h hb hh
  obtain ⟨hcmd, hresp, hstatus⟩ := mapReg_of_base hb
  refine ⟨?_, ?_, ?_⟩
  · rintro v (⟨rfl, rfl⟩ | ⟨rfl, rfl⟩ | ⟨rfl, rfl⟩)
    · exact load_returns h hh hcmd
    · exact load_returns h hh hresp
    · exact load_returns h hh hstatus
  · rintro v (rfl | rfl)
    · exact ignoredStore_changes_nothing h hh (.inl hresp)
    · exact ignoredStore_changes_nothing h hh (.inr hstatus)
  · rintro v rfl
    exact ⟨fun hp => step_of_acceptedStore h hp hh hcmd, fun hp => stalledStore_waits h hp hh hcmd⟩

end Sys2Proof.Machine
end

section
/-! PROOFS. The command word: decoder, encoder, and match and mask table agree (R71 to R78, R84), and acceptance raises
what the classification of R82 says. -/

namespace Sys2Proof

/- ## Decoder and encoder -/

variable {c : Word} {i : Instr}

/-- The decoder by the fields of the word (R77): `decode_cases` read backwards too. -/
theorem decode_ok_iff_fields : decode c = .ok i ↔
    (i = .nop ∧ opField c = 0b000#3 ∧ reservedN c = 0) ∨
    (i = .init ∧ opField c = 0b001#3 ∧ reservedN c = 0) ∨
    (i = .setpx (idxField c) (greenField c) (highOperand c) (lowOperand c) ∧ opField c = 0b010#3) ∨
    (i = .clear ∧ opField c = 0b011#3 ∧ reservedN c = 0) ∨
    (i = .flush ∧ opField c = 0b100#3 ∧ reservedN c = 0) ∨
    (i = .map (highOperand c) (lowOperand c) ∧ opField c = 0b101#3 ∧ reservedC c = 0) ∨
    (i = .digit (lowOperand c) ∧ opField c = 0b110#3 ∧ reservedD c = 0) := by
  refine ⟨decode_cases, ?_⟩
  rintro (⟨rfl, hop, hres⟩ | ⟨rfl, hop, hres⟩ | ⟨rfl, hop⟩ | ⟨rfl, hop, hres⟩ | ⟨rfl, hop, hres⟩ | ⟨rfl, hop, hres⟩ |
    ⟨rfl, hop, hres⟩) <;> simp [decode, *]

/-- Every command is read back from its word: its OP, reserved bits and operands stand in their fields (R72 to R76). -/
theorem decode_encode (i : Instr) : decode (encode i) = .ok i := by
  have hop : opField (encode i) = i.op := opField_encode i
  cases i with
  | nop => rfl
  | init => rfl
  | setpx idx g r b =>
    simp [decode, hop, Instr.op, idxField_setpx, greenField_setpx, highOperand_setpx, lowOperand_setpx]
  | clear => rfl
  | flush => rfl
  | map x y => simp [decode, hop, Instr.op, reservedC_map, highOperand_map, lowOperand_map]
  | digit d => simp [decode, hop, Instr.op, reservedD_digit, lowOperand_digit]

/-- A legal word has no bit outside the fields its command has, so it is that command's word (R77, R78). -/
theorem encode_of_decode (h : decode c = .ok i) : encode i = c := by
  obtain ⟨rfl, hop, hres⟩ | ⟨rfl, hop, hres⟩ | ⟨rfl, hop⟩ | ⟨rfl, hop, hres⟩ | ⟨rfl, hop, hres⟩ | ⟨rfl, hop, hres⟩ |
    ⟨rfl, hop, hres⟩ := decode_cases h
  · rw [← word_formatN c, hop, hres]; rfl
  · rw [← word_formatN c, hop, hres]; rfl
  · conv_rhs => rw [← word_formatP c, hop]
    rfl
  · rw [← word_formatN c, hop, hres]; rfl
  · rw [← word_formatN c, hop, hres]; rfl
  · conv_rhs => rw [← word_formatC c, hop, hres]
    rfl
  · conv_rhs => rw [← word_formatD c, hop, hres]
    rfl

theorem decode_ok_iff : decode c = .ok i ↔ encode i = c :=
  ⟨encode_of_decode, fun h => h ▸ decode_encode i⟩

/-- Settles O2: the fields of an encoded word are the command's. -/
theorem decodeOfEncodeIsSame : Obligations.DecodeOfEncodeIsSame := fun i _ => decode_encode i

/-- Settles O3: a word is its fields, and a legal word's reserved fields are 0. -/
theorem encodeOfDecodeIsSame : Obligations.EncodeOfDecodeIsSame := fun _ _ => encode_of_decode

/-- Settles O1: each of the seven words is the word of its command. -/
theorem sampleWordsDecode : Obligations.SampleWordsDecode := by
  refine ⟨?_, ?_, ?_, ?_, ?_, ?_, ?_⟩ <;> exact decode_ok_iff.2 (by decide)

/- ## The match and mask table -/

theorem append_eq_append_iff {v w : Nat} {a b : BitVec v} {x y : BitVec w} : a ++ x = b ++ y ↔ a = b ∧ x = y := by
  refine ⟨fun h => ?_, fun ⟨ha, hx⟩ => by rw [ha, hx]⟩
  have hx : x = y := by simpa [BitVec.setWidth_append_eq_right] using congrArg (BitVec.setWidth w) h
  subst hx
  exact ⟨(BitVec.append_left_inj x).1 h, rfl⟩

theorem and_append_eq_iff {v w : Nat} {a m p : BitVec v} {x n q : BitVec w} :
    (a ++ x) &&& (m ++ n) = p ++ q ↔ a &&& m = p ∧ x &&& n = q := by
  rw [BitVec.and_append, append_eq_append_iff]

theorem selects_iff (row : OpRow) (c : Word) : row.selects c = true ↔ c &&& row.mask = row.pattern := beq_iff_eq

/-- A row of format N masks nothing away (R72, R77). -/
theorem selects_formatN (name : String) (op : Op) (c : Word) :
    OpRow.selects ⟨name, op ++ 0#29, 0xFFFFFFFF#32⟩ c = true ↔ opField c = op ∧ reservedN c = 0 := by
  have hmask : 0xFFFFFFFF#32 = BitVec.allOnes 3 ++ BitVec.allOnes 29 := by decide
  conv_lhs => rw [selects_iff, ← word_formatN c, hmask]
  exact and_append_eq_iff.trans (by simp only [BitVec.and_allOnes, BitVec.ofNat_eq_ofNat])

/-- A row of format P masks its operands IDX, G, R, B away (R73, R77). -/
theorem selects_formatP (name : String) (op : Op) (c : Word) :
    OpRow.selects ⟨name, op ++ 0#5 ++ 0#8 ++ 0#8 ++ 0#8, 0xE0000000#32⟩ c = true ↔ opField c = op := by
  have hmask : 0xE0000000#32 = BitVec.allOnes 3 ++ 0#5 ++ 0#8 ++ 0#8 ++ 0#8 := by decide
  conv_lhs => rw [selects_iff, ← word_formatP c, hmask]
  exact and_append_eq_iff.trans (by simp only [and_append_eq_iff, BitVec.and_allOnes, BitVec.and_zero, and_true])

/-- A row of format C masks its operands X, Y away (R74, R77). -/
theorem selects_formatC (name : String) (op : Op) (c : Word) :
    OpRow.selects ⟨name, op ++ 0#13 ++ 0#8 ++ 0#8, 0xFFFF0000#32⟩ c = true ↔ opField c = op ∧ reservedC c = 0 := by
  have hmask : 0xFFFF0000#32 = BitVec.allOnes 3 ++ BitVec.allOnes 13 ++ 0#8 ++ 0#8 := by decide
  conv_lhs => rw [selects_iff, ← word_formatC c, hmask]
  exact and_append_eq_iff.trans <|
    by simp only [and_append_eq_iff, BitVec.and_allOnes, BitVec.and_zero, and_true, BitVec.ofNat_eq_ofNat]

/-- A row of format D masks its operand D away (R75, R77). -/
theorem selects_formatD (name : String) (op : Op) (c : Word) :
    OpRow.selects ⟨name, op ++ 0#21 ++ 0#8, 0xFFFFFF00#32⟩ c = true ↔ opField c = op ∧ reservedD c = 0 := by
  have hmask : 0xFFFFFF00#32 = BitVec.allOnes 3 ++ BitVec.allOnes 21 ++ 0#8 := by decide
  conv_lhs => rw [selects_iff, ← word_formatD c, hmask]
  exact and_append_eq_iff.trans <|
    by simp only [and_append_eq_iff, BitVec.and_allOnes, BitVec.and_zero, and_true, BitVec.ofNat_eq_ofNat]

/-- The words that decode to a command of a given mnemonic, by their fields (R77). -/
theorem exists_decode_mnemonic_iff {name : String} : (∃ i, decode c = .ok i ∧ i.mnemonic = name) ↔
    (opField c = 0b000#3 ∧ reservedN c = 0 ∧ "NOP" = name) ∨
    (opField c = 0b001#3 ∧ reservedN c = 0 ∧ "INIT" = name) ∨
    (opField c = 0b010#3 ∧ "SETPX" = name) ∨
    (opField c = 0b011#3 ∧ reservedN c = 0 ∧ "CLEAR" = name) ∨
    (opField c = 0b100#3 ∧ reservedN c = 0 ∧ "FLUSH" = name) ∨
    (opField c = 0b101#3 ∧ reservedC c = 0 ∧ "MAP" = name) ∨
    (opField c = 0b110#3 ∧ reservedD c = 0 ∧ "DIGIT" = name) := by
  simp only [decode_ok_iff_fields, or_and_right, exists_or, and_assoc, exists_eq_left, Instr.mnemonic]

/-- Settles O4: row and decoder ask the same of OP and of the format's reserved bits. -/
theorem maskTableSelectsDecodedCommand : Obligations.MaskTableSelectsDecodedCommand := by
  intro c row hrow
  rw [exists_decode_mnemonic_iff]
  simp only [opRows, List.mem_cons, List.not_mem_nil, or_false] at hrow
  obtain rfl | rfl | rfl | rfl | rfl | rfl | rfl := hrow
  · simpa using selects_formatN "NOP" 0b000#3 c
  · simpa using selects_formatN "INIT" 0b001#3 c
  · simpa using selects_formatP "SETPX" 0b010#3 c
  · simpa using selects_formatN "CLEAR" 0b011#3 c
  · simpa using selects_formatN "FLUSH" 0b100#3 c
  · simpa using selects_formatC "MAP" 0b101#3 c
  · simpa using selects_formatD "DIGIT" 0b110#3 c

/- ## Illegal words -/

theorem decode_error_iff_not_ok : (∃ e, decode c = .error e) ↔ ∀ i, decode c ≠ .ok i := by
  cases decode c <;> simp

/-- A word is illegal by its OP, or by a reserved bit of the format its OP selects (R78). -/
theorem decode_error_iff_fields : (∃ e, decode c = .error e) ↔
    opField c = 0b111#3 ∨
    (opField c ∈ [0b000#3, 0b001#3, 0b011#3, 0b100#3] ∧ reservedN c ≠ 0) ∨
    (opField c = 0b101#3 ∧ reservedC c ≠ 0) ∨
    (opField c = 0b110#3 ∧ reservedD c ≠ 0) := by
  rw [decode_error_iff_not_ok]
  obtain hop | hop | hop | hop | hop | hop | hop | hop := op_cases c <;> simp [decode_ok_iff_fields, hop]

/-- The laws of encoded words, for every command. -/
theorem encodedWord (i : Instr) : Laws.EncodedWord.Statement i := by
  cases i with
  | nop => exact Laws.EncodedWord.nop
  | init => exact Laws.EncodedWord.init
  | setpx idx g r b => exact Laws.EncodedWord.setpx idx g r b
  | clear => exact Laws.EncodedWord.clear
  | flush => exact Laws.EncodedWord.flush
  | map x y => exact Laws.EncodedWord.map x y
  | digit d => exact Laws.EncodedWord.digit d

/-- Every command has a row in the table (R77). -/
theorem exists_row_of_mnemonic (i : Instr) : ∃ row ∈ opRows, row.mnemonic = i.mnemonic := by
  obtain ⟨-, -, hmem⟩ := encodedWord i
  exact List.mem_map.1 hmem

/-- The illegal words are the words no row selects (R78). -/
theorem decode_error_iff_no_row : (∃ e, decode c = .error e) ↔ ∀ row ∈ opRows, row.selects c = false := by
  rw [decode_error_iff_not_ok]
  constructor
  · intro h row hrow
    rw [← Bool.not_eq_true, maskTableSelectsDecodedCommand c row hrow]
    rintro ⟨i, hi, -⟩
    exact h i hi
  · intro h i hi
    obtain ⟨row, hrow, hname⟩ := exists_row_of_mnemonic i
    have hsel : row.selects c = true := (maskTableSelectsDecodedCommand c row hrow).2 ⟨i, hi, hname.symm⟩
    simp [h row hrow] at hsel

/-- Settles O5: by fields, by the table, and by acceptance of an illegal word. -/
theorem illegalWordsCompleteWithoutEffect : Obligations.IllegalWordsCompleteWithoutEffect := by
  refine fun c => ⟨decode_error_iff_fields, decode_error_iff_no_row, ?_⟩
  rintro s ⟨e, he⟩ hnext
  rw [Machine.step_of_acceptNext hnext, Machine.accept_of_error he, Machine.raise_eq]

/- ## The classification of R82 -/

namespace Machine

variable {s : State}

/-- The code R82 returns for a legal word, command by command: the INIT gate first, then the command's own check. -/
def errorCode (i : Instr) (initDone : Bool) : Option Code :=
  match i, initDone with
  | .nop, _ => none
  | .init, false => none
  | .init, true => some .resourceUnavailable
  | .setpx _ _ _ _, false => some .notInitialized
  | .setpx idx _ _ _, true => if 25 ≤ idx.toNat then some .outOfRange else none
  | .clear, false => some .notInitialized
  | .clear, true => none
  | .flush, false => some .notInitialized
  | .flush, true => none
  | .map _ _, false => some .notInitialized
  | .map x y, true => if 5 ≤ x.toNat ∨ 5 ≤ y.toNat then some .outOfRange else none
  | .digit _, false => some .notInitialized
  | .digit d, true => if 10 ≤ d.toNat then some .invalidDigit else none

theorem classify_of_ok (h : decode c = .ok i) (initDone : Bool) : classify c initDone = errorCode i initDone := by
  obtain ⟨rfl, hop, hres⟩ | ⟨rfl, hop, hres⟩ | ⟨rfl, hop⟩ | ⟨rfl, hop, hres⟩ | ⟨rfl, hop, hres⟩ | ⟨rfl, hop, hres⟩ |
    ⟨rfl, hop, hres⟩ := decode_cases h <;> cases initDone <;> simp [classify, errorCode, *]

theorem classify_of_error {e : Illegal} (h : decode c = .error e) (initDone : Bool) :
    classify c initDone = some .illegalCommand := by
  obtain hop | ⟨hop, hres⟩ | ⟨hop, hres⟩ | ⟨hop, hres⟩ := decode_error_iff_fields.1 ⟨e, h⟩
  · simp [classify, hop]
  · simp only [classify, hop, hres, ne_eq, not_false_eq_true, and_self, if_true, ite_self]
  · simp [classify, hop, show reservedC c ≠ 0#13 from hres]
  · simp [classify, hop, show reservedD c ≠ 0#21 from hres]

/-- A command raises the code R82 gives it (R203). -/
theorem exec_of_errorCode {code : Code} (h : errorCode i s.initDone = some code) :
    exec i s = .next (raise i.op code s) := by
  cases hinit : s.initDone with
  | false =>
    rw [hinit] at h
    cases i with
    | nop => simp [errorCode] at h
    | init => simp [errorCode] at h
    | setpx _ _ _ _ | clear | flush | map _ _ | digit _ =>
      obtain rfl : _ = code := by simpa [errorCode] using h
      simp only [exec, execSetpx, execClear, execFlush, execMap, execDigit, Instr.op, requireInit_of_not_done hinit]
  | true =>
    rw [hinit] at h
    cases i with
    | nop => simp [errorCode] at h
    | init =>
      obtain rfl : _ = code := by simpa [errorCode] using h
      simp [exec, execInit, hinit, Instr.op]
    | setpx idx g r b =>
      obtain ⟨hidx, rfl⟩ : 25 ≤ idx.toNat ∧ _ = code := by simpa [errorCode] using h
      simp [exec, execSetpx, requireInit_of_done hinit, Instr.op, Nat.not_lt.2 hidx]
    | clear => simp [errorCode] at h
    | flush => simp [errorCode] at h
    | map x y =>
      obtain ⟨hxy, rfl⟩ : (5 ≤ x.toNat ∨ 5 ≤ y.toNat) ∧ _ = code := by simpa [errorCode] using h
      have hout : ¬(x.toNat ≤ 4 ∧ y.toNat ≤ 4) := by omega
      simp only [exec, execMap, requireInit_of_done hinit, Instr.op, if_neg hout]
    | digit d =>
      obtain ⟨hd, rfl⟩ : 10 ≤ d.toNat ∧ _ = code := by simpa [errorCode] using h
      simp [exec, execDigit, requireInit_of_done hinit, Instr.op, Nat.not_lt.2 hd]

/-- The OP of a legal word is its command's (R71). -/
theorem opField_of_decode (h : decode c = .ok i) : opField c = i.op := by
  rw [← encode_of_decode h, opField_encode]

/-- Settles O7: an illegal word raises ILLEGAL_COMMAND, and a legal one the code of its command, if it has one. -/
theorem acceptFollowsClassification : Obligations.AcceptFollowsClassification := by
  intro c s
  cases hd : decode c with
  | error e =>
    rw [classify_of_error hd]
    refine ⟨?_, by simp⟩
    rintro code ⟨⟩
    rw [accept_of_error hd, raise_eq]
  | ok i =>
    rw [classify_of_ok hd, accept_of_ok hd]
    refine ⟨fun code hcode => ?_, fun _ => ⟨i, rfl, encode_of_decode hd, rfl⟩⟩
    rw [exec_of_errorCode hcode, raise_eq, opField_of_decode hd]

end Machine

end Sys2Proof
end

section
/-! PROOFS. The assembler (R83 to R85): the words of its source lines, and the reading of its text (log 9). -/

namespace Sys2Proof.Machine

/- ## The words of a source line -/

@[simp] theorem fits_iff (w v : Nat) : fits w v = true ↔ v < 2 ^ w := by simp [fits]

theorem assemble_of_wf {a : Asm} (h : a.wf = true) : assemble a = .ok (asmWords a) := by simp [assemble, h]

/-- An ill-formed source line is an error, never a truncated word (R83). -/
theorem assemble_of_not_wf {a : Asm} (h : a.wf ≠ true) : assemble a = .error .operandDoesNotFit := by
  simp [assemble, h]

/-- A well-formed line with one command's word: the word decodes to the command. -/
theorem assemble_decodes {a : Asm} {i : Instr} (h : a.wf = true) (hi : asmWords a = [encode i]) :
    ∃ w, assemble a = .ok [w] ∧ decode w = .ok i :=
  ⟨encode i, by rw [assemble_of_wf h, hi], decode_encode i⟩

theorem wf_setpx {idx r g b : Nat} : (Asm.setpx idx r g b).wf = true ↔ idx < 32 ∧ r < 256 ∧ g < 256 ∧ b < 256 := by
  simp [Asm.wf, and_assoc]

theorem wf_map {x y : Nat} : (Asm.map x y).wf = true ↔ x < 256 ∧ y < 256 := by simp [Asm.wf]

theorem wf_digit {d : Nat} : (Asm.digit d).wf = true ↔ d < 256 := by simp [Asm.wf]

theorem wf_word {v : Nat} : (Asm.word v).wf = true ↔ v < 2 ^ 32 := by simp [Asm.wf]

theorem wf_setxy {x y r g b : Nat} :
    (Asm.setxy x y r g b).wf = true ↔ x ≤ 4 ∧ y ≤ 4 ∧ r < 256 ∧ g < 256 ∧ b < 256 := by
  simp [Asm.wf, and_assoc]

/-- Settles O52: the word is the encoding of the operands in the word's order, and wf is that they fit. -/
theorem assembledSetpxDecodes : Obligations.AssembledSetpxDecodes := by
  refine fun idx r g b => ⟨fun hidx hr hg hb => ?_, fun hbad => ?_⟩
  · exact assemble_decodes (wf_setpx.2 ⟨hidx, hr, hg, hb⟩) rfl
  · exact assemble_of_not_wf (wf_setpx.not.2 (by omega))

/-- Settles O55, line by line. -/
theorem assembledCommandsDecode : Obligations.AssembledCommandsDecode := by
  refine ⟨rfl, rfl, rfl, rfl, rfl, fun x y => ⟨fun hx hy => ?_, fun hbad => ?_⟩,
    fun d => ⟨fun hd => ?_, fun hbad => ?_⟩, fun v => ⟨fun hv => ?_, fun hbad => ?_⟩⟩
  · exact assemble_decodes (wf_map.2 ⟨hx, hy⟩) rfl
  · exact assemble_of_not_wf (wf_map.not.2 (by omega))
  · exact assemble_decodes (wf_digit.2 hd) rfl
  · exact assemble_of_not_wf (wf_digit.not.2 (by omega))
  · exact ⟨BitVec.ofNat 32 v, assemble_of_wf (wf_word.2 hv), by rw [BitVec.toNat_ofNat, Nat.mod_eq_of_lt hv]⟩
  · exact assemble_of_not_wf (wf_word.not.2 (by omega))

theorem mapNat_lt (x y : Nat) : mapNat x y < 32 := by
  unfold mapNat
  split <;> omega

/-- SETXY gives the word of SETPX at the mapped index (R85). -/
theorem assemble_setxy {x y r g b : Nat} (h : (Asm.setxy x y r g b).wf = true) :
    assemble (.setxy x y r g b) = assemble (.setpx (mapNat x y) r g b) := by
  obtain ⟨-, -, hcolours⟩ := wf_setxy.1 h
  rw [assemble_of_wf h, assemble_of_wf (wf_setpx.2 ⟨mapNat_lt x y, hcolours⟩)]
  rfl

/-- Settles O56: on the grid the mapped index fits SETPX's field. -/
theorem assembledSetxyIsSetpxOfMap : Obligations.AssembledSetxyIsSetpxOfMap := by
  refine fun x y r g b => ⟨fun hx hy hr hg hb => ?_, fun hbad => ?_⟩
  · have hwf : (Asm.setxy x y r g b).wf = true := wf_setxy.2 ⟨hx, hy, hr, hg, hb⟩
    exact ⟨assemble_setxy hwf, assemble_decodes hwf rfl⟩
  · exact assemble_of_not_wf (wf_setxy.not.2 (by omega))

/- ## Numbers -/

theorem isDigit_of_mem_decimal {v : Nat} {ch : Char} (h : ch ∈ Nat.toDigits 10 v) : ch.isDigit = true :=
  Nat.isDigit_of_mem_toDigits (by decide) (by decide) h

/-- A text of digits with no `0x` is read in decimal (R83). -/
theorem parseNumber_of_digits {cs : List Char} (hne : cs ≠ []) (h : ∀ ch ∈ cs, ch.isDigit = true) :
    parseNumber cs = digitsValue 10 cs 0 := by
  unfold parseNumber
  split
  · exact absurd rfl hne
  · exact absurd (h 'x' (by simp)) (by decide)
  · exact absurd (h 'x' (by simp)) (by decide)
  · rfl

theorem parseNumber_decimal (v : Nat) : parseNumber (Nat.toDigits 10 v) = some v := by
  rw [parseNumber_of_digits Nat.toDigits_ne_nil fun _ => isDigit_of_mem_decimal, digitsValue_toDigits (.inl rfl)]

theorem parseNumber_hexadecimal (v : Nat) : parseNumber ('0' :: 'x' :: Nat.toDigits 16 v) = some v := by
  obtain ⟨d, ds, hds⟩ := List.exists_cons_of_ne_nil (Nat.toDigits_ne_nil (n := v) (b := 16))
  rw [hds]
  show digitsValue 16 (d :: ds) 0 = some v
  rw [← hds, digitsValue_toDigits (.inr rfl)]

/- ## Blanks and comments -/

theorem trim_eq_nil_iff (cs : List Char) : trim cs = [] ↔ ∀ ch ∈ cs, isBlank ch = true := by
  unfold trim
  rw [List.reverse_eq_nil_iff, List.dropWhile_eq_nil_iff]
  constructor
  · intro h ch hch
    rw [← List.takeWhile_append_dropWhile (p := isBlank) (l := cs), List.mem_append] at hch
    obtain hch | hch := hch
    · exact List.mem_takeWhile_imp hch
    · exact h ch (List.mem_reverse.2 hch)
  · intro h
    simp [List.dropWhile_eq_nil_iff.2 h]

theorem stripComment_of_not_mem {line : List Char} (h : ';' ∉ line) : stripComment line = line :=
  List.takeWhile_eq_self_iff.2 fun ch hch => by
    have hne : ch ≠ ';' := fun heq => h (heq ▸ hch)
    simpa using hne

theorem stripComment_append {line : List Char} (comment : List Char) (h : ';' ∉ line) :
    stripComment (line ++ ';' :: comment) = line := by
  have hall : ∀ ch ∈ line, (ch != ';') = true := List.takeWhile_eq_self_iff.1 (stripComment_of_not_mem h)
  simp [stripComment, List.takeWhile_append_of_pos hall]

/-- Only what stands before the comment is read (R83). -/
theorem parseLine_congr {line line' : List Char} (h : stripComment line = stripComment line') :
    parseLine line = parseLine line' := by
  simp only [parseLine, h]

theorem parseLine_of_blanks {line : List Char} (h : ∀ ch ∈ line, isBlank ch = true) : parseLine line = .ok none := by
  have hblank : ∀ ch ∈ stripComment line, isBlank ch = true := fun ch hch => h ch (List.takeWhile_subset _ hch)
  simp [parseLine, (trim_eq_nil_iff _).2 hblank]

/- ## Operands -/

theorem operandsText_cons {v : Nat} {vs : List Nat} (hvs : vs ≠ []) :
    operandsText (v :: vs) = Nat.toDigits 10 v ++ ',' :: ' ' :: operandsText vs := by
  obtain ⟨v', vs', rfl⟩ := List.exists_cons_of_ne_nil hvs
  rfl

theorem trim_decimal (v : Nat) : trim (Nat.toDigits 10 v) = Nat.toDigits 10 v := by
  have hplain : ∀ ch ∈ Nat.toDigits 10 v, isBlank ch = false := fun ch hch =>
    (isDigit_plain (isDigit_of_mem_decimal hch)).1
  exact trim_of_ends _ (fun ch hch => hplain ch (List.mem_of_mem_head? hch))
    fun ch hch => hplain ch (List.mem_of_mem_getLast? hch)

theorem comma_not_mem_blank_decimal (v : Nat) : ',' ∉ ' ' :: Nat.toDigits 10 v := by
  simp only [List.mem_cons, not_or]
  exact ⟨by decide, fun h => absurd (isDigit_of_mem_decimal h) (by decide)⟩

theorem semicolon_not_mem_operandsText (ops : List Nat) : ';' ∉ operandsText ops := by
  have hdigits (v : Nat) : ';' ∉ Nat.toDigits 10 v := fun h => absurd (isDigit_of_mem_decimal h) (by decide)
  induction ops using operandsText.induct with
  | case1 => simp [operandsText]
  | case2 v => exact hdigits v
  | case3 v vs hne ih => simp [operandsText_cons hne, hdigits, ih]

/-- The text of some operands ends with a number. -/
theorem operandsText_ends_with_number {ops : List Nat} (hops : ops ≠ []) :
    ∃ l v, operandsText ops = l ++ Nat.toDigits 10 v := by
  induction ops using operandsText.induct with
  | case1 => exact absurd rfl hops
  | case2 v => exact ⟨[], v, rfl⟩
  | case3 v vs hne ih =>
    obtain ⟨l, v', hl⟩ := ih hne
    exact ⟨Nat.toDigits 10 v ++ ',' :: ' ' :: l, v', by simp [operandsText_cons hne, hl]⟩

/-- Operands after blanks are read back from their text, operand by operand. -/
theorem mapM_splitCommas_operandsText {ops : List Nat} (hops : ops ≠ []) :
    (splitCommas (' ' :: operandsText ops)).mapM (fun part => parseNumber (trim part)) = some ops := by
  induction ops using operandsText.induct with
  | case1 => exact absurd rfl hops
  | case2 v =>
    rw [operandsText, splitCommas_single _ (comma_not_mem_blank_decimal v)]
    simp [trim_decimal, parseNumber_decimal]
  | case3 v vs hne ih =>
    rw [operandsText_cons hne, ← List.cons_append, splitCommas_comma _ _ (comma_not_mem_blank_decimal v)]
    simp [trim_decimal, parseNumber_decimal, ih hne]

theorem parseOperands_operandsText {ops : List Nat} (hops : ops ≠ []) :
    parseOperands (' ' :: operandsText ops) = some ops := by
  have hne : trim (' ' :: operandsText ops) ≠ [] := by
    obtain ⟨l, v, hl⟩ := operandsText_ends_with_number hops
    obtain ⟨d, hd⟩ := List.exists_mem_of_ne_nil _ (Nat.toDigits_ne_nil (n := v) (b := 10))
    have hdigit : isBlank d = false := (isDigit_plain (isDigit_of_mem_decimal hd)).1
    intro hnil
    have hblank : isBlank d = true := (trim_eq_nil_iff _).1 hnil d (by simp [hl, hd])
    simp [hdigit] at hblank
  rw [parseOperands, if_neg (by simpa using hne), mapM_splitCommas_operandsText hops]

/- ## A line with a mnemonic -/

/-- A mnemonic: some characters, none of them a blank or the comment sign. -/
def IsName (name : List Char) : Prop := name ≠ [] ∧ ∀ ch ∈ name, isBlank ch = false ∧ ch ≠ ';'

variable {name : List Char} {ops : List Nat}

theorem isName_of_mem_mnemonicTable : ∀ row ∈ mnemonicTable, IsName row.1 := by
  simp [mnemonicTable, IsName, isBlank]

theorem isName_of_findIdx? {k : Nat} (hk : mnemonicTable.findIdx? (·.1 == name) = some k) : IsName name := by
  obtain ⟨hlt, hrow, -⟩ := List.findIdx?_eq_some_iff_getElem.1 hk
  obtain rfl : mnemonicTable[k].1 = name := by simpa using hrow
  exact isName_of_mem_mnemonicTable _ (List.getElem_mem hlt)

theorem trim_name_operands (hname : IsName name) (hops : ops ≠ []) :
    trim (name ++ ' ' :: operandsText ops) = name ++ ' ' :: operandsText ops := by
  obtain ⟨hne, hplain⟩ := hname
  obtain ⟨l, v, hl⟩ := operandsText_ends_with_number hops
  apply trim_of_ends
  · intro ch hch
    rw [List.head?_append_of_ne_nil _ hne] at hch
    exact (hplain ch (List.mem_of_mem_head? hch)).1
  · intro ch hch
    rw [hl, ← List.cons_append, ← List.append_assoc, List.getLast?_append_of_ne_nil _ Nat.toDigits_ne_nil] at hch
    exact (isDigit_plain (isDigit_of_mem_decimal (List.mem_of_mem_getLast? hch))).1

theorem stripComment_name_operands (hname : IsName name) :
    stripComment (name ++ ' ' :: operandsText ops) = name ++ ' ' :: operandsText ops := by
  obtain ⟨-, hplain⟩ := hname
  apply stripComment_of_not_mem
  simp only [List.mem_append, List.mem_cons, not_or]
  exact ⟨fun h => (hplain _ h).2 rfl, by decide, semicolon_not_mem_operandsText ops⟩

theorem takeWhile_name_operands (hname : IsName name) (rest : List Char) :
    (name ++ ' ' :: rest).takeWhile (fun ch => !isBlank ch) = name := by
  obtain ⟨-, hplain⟩ := hname
  rw [List.takeWhile_append_of_pos fun ch hch => by simp [(hplain ch hch).1]]
  simp [isBlank]

/-- A mnemonic of the table before operands in decimal is read as its source line (R83 to R85). -/
theorem parseLine_name_operands {a : Asm} (name : List Char) (k : Nat)
    (hk : mnemonicTable.findIdx? (·.1 == name) = some k) (hops : ops ≠ []) (ha : lineOf k ops = some a) :
    parseLine (name ++ ' ' :: operandsText ops) = .ok (some a) := by
  have hname : IsName name := isName_of_findIdx? hk
  simp [parseLine, stripComment_name_operands hname, trim_name_operands hname hops, takeWhile_name_operands hname,
    parseOperands_operandsText hops, hk, ha]

/-- Every source line is read back from its text (R83 to R85). -/
theorem parseLine_lineText (a : Asm) : parseLine (lineText a) = .ok (some a) := by
  cases a with
  | nop => decide
  | init => decide
  | setpx idx r g b => exact parseLine_name_operands "SETPX".toList 2 (by decide) (by simp) rfl
  | clear => decide
  | flush => decide
  | map x y => exact parseLine_name_operands "MAP".toList 5 (by decide) (by simp) rfl
  | digit d => exact parseLine_name_operands "DIGIT".toList 6 (by decide) (by simp) rfl
  | word v => exact parseLine_name_operands ".word".toList 7 (by decide) (by simp) rfl
  | blank => decide
  | setxy x y r g b => exact parseLine_name_operands "SETXY".toList 9 (by decide) (by simp) rfl

/-- Settles O57: the written-out lines are the texts of their source lines, but for those with a hexadecimal number or
a comment, which are evaluated. -/
theorem assembledTextDropsComments : Obligations.AssembledTextDropsComments := by
  refine ⟨⟨?_, ?_, ?_, ?_, ?_, ?_, ?_, ?_, ?_, ?_⟩, parseLine_lineText,
    fun v => ⟨parseNumber_decimal v, parseNumber_hexadecimal v⟩, fun line comment hline => ⟨?_, ?_, ?_⟩⟩
  · exact parseLine_lineText .nop
  · exact parseLine_lineText .init
  · decide
  · exact parseLine_lineText .clear
  · exact parseLine_lineText .flush
  · exact parseLine_lineText (.map 4 1)
  · exact parseLine_lineText (.digit 9)
  · decide
  · exact parseLine_lineText .blank
  · exact parseLine_lineText (.setxy 0 0 255 0 0)
  · have hparse : parseLine (line ++ ';' :: comment) = parseLine line := parseLine_congr <| by
      rw [stripComment_append comment hline, stripComment_of_not_mem hline]
    simp [assembleLine, hparse]
  · intro a ha
    simp [assembleLine, ha]
  · intro hblank
    simp [assembleLine, parseLine_of_blanks (line := line) (by simpa [isBlank] using hblank)]

end Sys2Proof.Machine
end

section
/-! PROOFS. The driver's commands NOP, INIT, SETPX and CLEAR (R101 to R106): the state each answers, what it leaves
unchanged, and the steps that change the buffer. -/

namespace Sys2Proof.Machine

variable {s t : State} {i : Instr}

/- ## What each command answers -/

/-- The completion code of a response word (R25). -/
@[simp] theorem respCode_respWord (op : Op) (code : Code) (result : BitVec 5) :
    respCode (respWord op code result) = code.toBits := by
  obtain ⟨_, _, hcode, _, _⟩ := respWord_fields op code result
  exact hcode

/-- A response, with its word written out (R205). -/
theorem respond_of_word {op : Op} {code : Code} {result : BitVec 5} {w : Word} (hw : respWord op code result = w)
    (s : State) : respond op code result s = { s with resp := w, rspPulse := true } := by
  rw [← hw]
  rfl

theorem exec_nop (s : State) : exec .nop s = .next (respond 0b000#3 .ok 0 s) := rfl

theorem exec_init_of_not_done (h : s.initDone = false) :
    exec .init s = .next (respond 0b001#3 .ok 0 (claimChannel (clearPixels s))) := by
  simp [exec, execInit, h]

theorem exec_setpx_of_lt {idx : BitVec 5} (hlt : idx.toNat < 25) (h : s.initDone = true) (g r b : Byte) :
    exec (.setpx idx g r b) s = .next (respond 0b010#3 .ok 0 (setPixel idx.toNat hlt (pixelWord g r b) s)) := by
  simp [exec, execSetpx, requireInit_of_done h, hlt]

theorem exec_clear_of_done (h : s.initDone = true) :
    exec .clear s = .next (respond 0b011#3 .ok 0 (clearPixels s)) := by
  simp [exec, execClear, requireInit_of_done h]

/-- A command with an error code raises it, with the response word written out (R203). -/
theorem exec_of_errorCode_word {code : Code} {w : Word} (h : errorCode i s.initDone = some code)
    (hw : respWord i.op code 0 = w) : exec i s = .next { s with resp := w, rspPulse := true } := by
  rw [exec_of_errorCode h, raise, respond_of_word hw]

/-- Settles O6: the acceptance step is `accept`, and that runs the command of a legal word. -/
theorem stepRunsDecodedCommand : Obligations.StepRunsDecodedCommand := by
  intro s c i haccept hdecode _
  rw [step_of_acceptNext haccept, accept_of_ok hdecode]

/-- Settles O10: NOP has no gate and no operands, so it is its response. -/
theorem nopOnlyResponds : Obligations.NopOnlyResponds := by
  intro s
  rw [exec_nop, respond_of_word (w := 0x00000000#32) (by decide)]

/-- Settles O11: the claim and the clear, with the response word of OP 1 and OK. -/
theorem firstInitClaimsAndZeroes : Obligations.FirstInitClaimsAndZeroes := by
  intro s h
  rw [exec_init_of_not_done h, respond_of_word (w := 0x20000000#32) (by decide)]
  rfl

/-- Settles O12: after INIT, the classification of R82 gives INIT the code RESOURCE_UNAVAILABLE. -/
theorem secondInitIsUnavailable : Obligations.SecondInitIsUnavailable := by
  intro s h
  have hword : respWord 0b001#3 .resourceUnavailable 0 = 0x20000003#32 := by decide
  exact exec_of_errorCode_word (by simp [errorCode, h]) hword

/-- Settles O13: the gate is open and the index is in the buffer, so the pixel is written. -/
theorem setpxWritesOnePixel : Obligations.SetpxWritesOnePixel := by
  intro idx g r b s hlt h
  rw [exec_setpx_of_lt hlt h, respond_of_word (w := 0x40000000#32) (by decide)]
  rfl

/-- Settles O14: the classification of R82 gives such an IDX the code OUT_OF_RANGE. -/
theorem setpxOutOfRangeWritesNothing : Obligations.SetpxOutOfRangeWritesNothing := by
  intro idx g r b s hidx h
  have hword : respWord 0b010#3 .outOfRange 0 = 0x40000001#32 := by decide
  exact exec_of_errorCode_word (by simp [errorCode, h, hidx]) hword

/-- Settles O15: the gate is open, so the buffer is cleared. -/
theorem clearZeroesTheBuffer : Obligations.ClearZeroesTheBuffer := by
  intro s h
  rw [exec_clear_of_done h, respond_of_word (w := 0x60000000#32) (by decide)]
  rfl

/-- Every pixel of the cleared buffer is dark (R104). -/
@[simp] theorem getElem_zeroPixels (k : Nat) (hk : k < 25) : zeroPixels[k] = 0x000000#24 :=
  Vector.getElem_replicate hk

/-- Settles O16: CLEAR leaves INIT_DONE, so the second one answers from the first one's buffer and response. -/
theorem clearIsIdempotent : Obligations.ClearIsIdempotent := by
  intro s h
  have hfirst := exec_clear_of_done h
  have hsecond := exec_clear_of_done (s := respond 0b011#3 .ok 0 (clearPixels s)) h
  refine ⟨_, _, hfirst, hsecond, rfl, rfl, rfl, fun k => ?_⟩
  simp [green, red, blue]

/- ## What a command leaves unchanged -/

/-- A command other than FLUSH and DIGIT completes within its acceptance step, and starts no frame (R100). -/
theorem exec_completes (hflush : i ≠ .flush) (hdigit : ∀ d, i ≠ .digit d) (he : exec i s = .next t) :
    t.rspPulse = true ∧ t.phase = s.phase ∧ t.byteCnt = s.byteCnt ∧ t.gapCnt = s.gapCnt ∧ t.curOp = s.curOp := by
  obtain ⟨_, _, rfl⟩ | ⟨_, rfl⟩ | ⟨_, _, rfl⟩ | ⟨_, _, _, _, _, _, _, rfl⟩ | ⟨_, _, rfl⟩ | ⟨rfl, _⟩ |
    ⟨_, _, _, _, _, _, rfl⟩ | ⟨d, _, rfl, _⟩ := exec_cases he
  · simp [raise]
  · simp
  · simp
  · simp
  · simp
  · exact absurd rfl hflush
  · simp
  · exact absurd rfl (hdigit d)

/-- Only INIT may change INIT_DONE (R24). -/
theorem exec_initDone (hinit : i ≠ .init) (he : exec i s = .next t) : t.initDone = s.initDone := by
  obtain ⟨_, _, rfl⟩ | ⟨_, rfl⟩ | ⟨hi, _⟩ | ⟨_, _, _, _, _, _, _, rfl⟩ | ⟨_, _, rfl⟩ | ⟨_, _, rfl⟩ |
    ⟨_, _, _, _, _, _, rfl⟩ | ⟨_, _, _, _, rfl⟩ := exec_cases he
  · rfl
  · rfl
  · exact absurd hi hinit
  all_goals rfl

/-- A command that does not leave the buffer as it is, is one of the four of R106. -/
theorem exec_pix (he : exec i s = .next t) : t.pix = s.pix ∨
    (i = .init ∨ (∃ idx g r b, i = .setpx idx g r b) ∨ i = .clear ∨ ∃ d, i = .digit d) := by
  obtain ⟨_, _, rfl⟩ | ⟨_, rfl⟩ | ⟨hi, _⟩ | ⟨idx, g, r, b, _, hi, _⟩ | ⟨hi, _⟩ | ⟨_, _, rfl⟩ |
    ⟨_, _, _, _, _, _, rfl⟩ | ⟨d, _, hi, _⟩ := exec_cases he
  · exact .inl rfl
  · exact .inl rfl
  · exact .inr (.inl hi)
  · exact .inr (.inr (.inl ⟨idx, g, r, b, hi⟩))
  · exact .inr (.inr (.inr (.inl hi)))
  · exact .inl rfl
  · exact .inl rfl
  · exact .inr (.inr (.inr (.inr ⟨d, hi⟩)))

/-- The state of a command that has an error code (R203). -/
theorem eq_raise_of_errorCode {code : Code} (hcode : errorCode i s.initDone = some code)
    (he : exec i s = .next t) : t = raise i.op code s := by
  rw [exec_of_errorCode hcode] at he
  simpa using he.symm

/-- A command that changes the buffer completes without an error code: one that has a code raises it, which writes
no pixel (R106, R203). -/
theorem errorCode_of_pix_ne (he : exec i s = .next t) (hne : t.pix ≠ s.pix) : errorCode i s.initDone = none := by
  cases hcode : errorCode i s.initDone with
  | none => rfl
  | some code =>
    rw [eq_raise_of_errorCode hcode he] at hne
    exact absurd rfl hne

/-- A command that completes at once with an error code in its response has raised it (R203). -/
theorem exec_raises (hflush : i ≠ .flush) (hdigit : ∀ d, i ≠ .digit d) (he : exec i s = .next t)
    (herr : respCode t.resp ≠ 0#4) : ∃ code, t = raise i.op code s := by
  obtain ⟨code, _, rfl⟩ | ⟨_, rfl⟩ | ⟨_, _, rfl⟩ | ⟨_, _, _, _, _, _, _, rfl⟩ | ⟨_, _, rfl⟩ | ⟨rfl, _⟩ |
    ⟨_, _, _, _, _, _, rfl⟩ | ⟨d, _, rfl, _⟩ := exec_cases he
  · exact ⟨code, rfl⟩
  · simp [Code.toBits] at herr
  · simp [Code.toBits] at herr
  · simp [Code.toBits] at herr
  · simp [Code.toBits] at herr
  · exact absurd rfl hflush
  · simp [Code.toBits] at herr
  · exact absurd rfl (hdigit d)

/-- SETPX completes with OK exactly after INIT and with an IDX of 24 or less (R103, R202). -/
theorem errorCode_setpx_eq_none {idx : BitVec 5} {g r b : Byte} {initDone : Bool} :
    errorCode (.setpx idx g r b) initDone = none ↔ initDone = true ∧ idx.toNat < 25 := by
  cases initDone <;> simp [errorCode]

/-- SETPX writes at most the pixel of its IDX (R103). -/
theorem exec_setpx_other {idx : BitVec 5} {g r b : Byte} (he : exec (.setpx idx g r b) s = .next t) {k : Nat}
    (hk : k < 25) (hne : k ≠ idx.toNat) : t.pix[k] = s.pix[k] := by
  cases hcode : errorCode (.setpx idx g r b) s.initDone with
  | some code =>
    rw [eq_raise_of_errorCode hcode he]
    rfl
  | none =>
    obtain ⟨hinit, hlt⟩ := errorCode_setpx_eq_none.1 hcode
    obtain rfl : _ = t := by simpa [exec_setpx_of_lt hlt hinit] using he
    simp [Vector.getElem_set_ne, hne.symm]

/-- Settles O27: neither command starts a frame, is INIT, or is one of those that change the buffer. -/
theorem nopAndMapFrame : Obligations.NopAndMapFrame := by
  intro i s t hi he
  have hother : i ≠ .flush ∧ (∀ d, i ≠ .digit d) ∧ i ≠ .init ∧ (∀ idx g r b, i ≠ .setpx idx g r b) ∧ i ≠ .clear := by
    obtain rfl | ⟨x, y, rfl⟩ := hi <;> simp
  obtain ⟨hflush, hdigit, hinit, hsetpx, hclear⟩ := hother
  obtain ⟨hpulse, hphase, hbyte, hgap, howner⟩ := exec_completes hflush hdigit he
  obtain ⟨hlog, hcfg, hle, henv⟩ := exec_keeps he
  have hpix : t.pix = s.pix := (exec_pix he).resolve_right (by simp [*])
  exact ⟨hpulse, hcfg, hpix, exec_initDone hinit he, hphase, hbyte, hgap, howner, hle, henv, hlog⟩

/-- Settles O28: none of the three starts a frame, and an error code in the response is one that was raised. -/
theorem bufferCommandsFrame : Obligations.BufferCommandsFrame := by
  intro i s t hi he
  have hother : i ≠ .flush ∧ ∀ d, i ≠ .digit d := by
    obtain rfl | ⟨idx, g, r, b, rfl⟩ | rfl := hi <;> simp
  obtain ⟨hflush, hdigit⟩ := hother
  obtain ⟨hpulse, hphase, hbyte, hgap, howner⟩ := exec_completes hflush hdigit he
  obtain ⟨hlog, hcfg, hle, henv⟩ := exec_keeps he
  refine ⟨⟨hpulse, hcfg, hphase, hbyte, hgap, howner, hle, henv, hlog⟩, (exec_initDone · he), ?_, fun herr => ?_⟩
  · rintro idx g r b rfl j hj
    exact exec_setpx_other he j.isLt hj
  · obtain ⟨code, rfl⟩ := exec_raises hflush hdigit he herr
    exact ⟨rfl, rfl⟩

/- ## The steps that change the buffer -/

/-- An acceptance that changes the buffer is one of the four commands of R106, completing without an error code. -/
theorem accept_pix {c : Word} (ha : accept c s = .next t) (hne : t.pix ≠ s.pix) :
    ∃ i, decode c = .ok i ∧ classify c s.initDone = none ∧
      (i = .init ∨ (∃ idx g r b, i = .setpx idx g r b) ∨ i = .clear ∨ ∃ d, i = .digit d) := by
  obtain ⟨_, rfl⟩ | ⟨i, hd, he⟩ := accept_cases ha
  · exact absurd rfl hne
  · have hok : classify c s.initDone = none := (classify_of_ok hd _).trans (errorCode_of_pix_ne he hne)
    exact ⟨i, hd, hok, (exec_pix he).resolve_left hne⟩

/-- Settles O36: of the four things a step can be, only a reset edge and an acceptance touch the buffer. -/
theorem pixChangesOnlyByCommands : Obligations.PixChangesOnlyByCommands := by
  intro s t h hne
  obtain ⟨_, rfl⟩ | ⟨hm, hr, _⟩ | ⟨c, ⟨⟨hm, hr⟩, hp, ho⟩, ha⟩ | ⟨_, _, rfl⟩ := step_cases h
  · exact absurd (by simp) hne
  · exact ⟨hm, .inl hr⟩
  · obtain ⟨i, hd, hok, hi⟩ := accept_pix ha (by simpa using hne)
    exact ⟨hm, .inr ⟨c, i, ⟨⟨hm, hr⟩, hp, ho⟩, hd, by simpa using hok, hi⟩⟩
  · obtain ⟨hsame, _⟩ := sequencerEdge_keeps (hostMove (dropPulse (popRst (popMover s))))
    exact absurd (by simpa using hsame) hne

end Sys2Proof.Machine
end

section
/-! PROOFS. The line encoder (R139, R141): its moves case by case, the bits it keeps in order, and the refill in TX. -/

namespace Sys2Proof.Machine

variable {s t : State} {le : LineEncoder}

/- ## An edge of the sequencer -/

/-- The state the sequencer finds at an edge with `rst` = 0 that accepts nothing: the host has made its move, and the old
response pulse has fallen. The block's other state is as before. -/
abbrev atEdge (s : State) : State := hostMove (dropPulse (popRst (popMover s)))

/- ## A load, and each move, case by case -/

theorem LineEncoder.loadIfReady_of_ready (hbits : le.bits = 0) (hfull : le.holdFull = true) :
    le.loadIfReady = le.load := if_pos ⟨hbits, hfull⟩

theorem LineEncoder.loadIfReady_of_not_ready (h : le.bits ≠ 0 ∨ le.holdFull = false) : le.loadIfReady = le :=
  if_neg (by rintro ⟨hbits, hfull⟩; simp [hbits, hfull] at h)

@[simp] theorem LineEncoder.dropBit_bits_val (le : LineEncoder) : le.dropBit.bits.val = le.bits.val - 1 := rfl
@[simp] theorem LineEncoder.dropBit_holdFull (le : LineEncoder) : le.dropBit.holdFull = le.holdFull := rfl
@[simp] theorem LineEncoder.dropBit_hold (le : LineEncoder) : le.dropBit.hold = le.hold := rfl
@[simp] theorem LineEncoder.dropBit_shift (le : LineEncoder) : le.dropBit.shift = le.shift <<< 1 := rfl

/-- The end of a bit period leaves no bit exactly after a byte's last bit. -/
theorem LineEncoder.dropBit_bits_eq_zero : le.dropBit.bits = 0 ↔ le.bits.val ≤ 1 := by
  rw [Fin.ext_iff, dropBit_bits_val]
  exact Nat.sub_eq_zero_iff_le

theorem leMove_of_noBits (hsub : s.le.sub = .start) (hbits : s.le.bits = 0) :
    leMove s = { s with le := s.le.loadIfReady } := by simp [leMove, hsub, hbits]

theorem leMove_of_start (hsub : s.le.sub = .start) (hbits : s.le.bits ≠ 0) :
    leMove s = { s with le := { s.le with dout := true, sub := .high } } := by simp [leMove, hsub, hbits]

theorem leMove_of_high (hsub : s.le.sub = .high) :
    leMove s = { s with le := { s.le with dout := false, sub := .low } } := by simp [leMove, hsub]

theorem leMove_of_low (hsub : s.le.sub = .low) :
    leMove s = { s with
      le := s.le.dropBit.loadIfReady
      log := { s.log with line := s.log.line ++ [pulseOf s.cfg s.le.currentBit] } } := by simp [leMove, hsub]

/- ## One step of the line encoder -/

/-- What the end of a bit period leaves in the encoder: the byte shifted left, or after its last bit the held byte,
if there is one (R139). -/
theorem LineEncoder.endOfBit (le : LineEncoder) :
    (1 < le.bits.val → le.dropBit.loadIfReady = le.dropBit) ∧
    (le.bits.val = 1 → le.holdFull = false → le.dropBit.loadIfReady = le.dropBit) ∧
    (le.bits.val = 1 → le.holdFull = true → le.dropBit.loadIfReady = le.dropBit.load) := by
  refine ⟨fun hleft => ?_, fun _ hempty => ?_, fun hlast hfull => ?_⟩
  · exact loadIfReady_of_not_ready (.inl fun h0 => by have := dropBit_bits_eq_zero.1 h0; omega)
  · exact loadIfReady_of_not_ready (.inr hempty)
  · exact loadIfReady_of_ready (dropBit_bits_eq_zero.2 hlast.le) hfull

/-- Settles O38: the move is `leMove`, case by case; at a period's end the bit is LE_SHIFT[7], and what comes next is
`LineEncoder.endOfBit`. -/
theorem lineEncoderSendsMsbFirst : Obligations.LineEncoderSendsMsbFirst := by
  intro s hmover
  refine ⟨_, step_of_lineEncoder hmover, by simp, fun hsub hbits hfull => ?_, fun hsub hbits hempty => ?_,
    fun hsub hbits => ?_, fun hsub => ?_, fun hsub => ?_⟩
  · rw [leMove_of_noBits (by simpa using hsub) (by simpa using hbits), popMover_le,
      LineEncoder.loadIfReady_of_ready hbits hfull]
    exact ⟨rfl, popMover_log s⟩
  · rw [leMove_of_noBits (by simpa using hsub) (by simpa using hbits), popMover_le,
      LineEncoder.loadIfReady_of_not_ready (.inr hempty)]
    exact ⟨rfl, popMover_log s⟩
  · rw [leMove_of_start (by simpa using hsub) (by simpa using hbits), popMover_le]
    exact ⟨rfl, popMover_log s⟩
  · rw [leMove_of_high (by simpa using hsub), popMover_le]
    exact ⟨rfl, popMover_log s⟩
  · rw [leMove_of_low (by simpa using hsub), popMover_le, popMover_log, popMover_cfg]
    obtain ⟨hmore, hdry, hnext⟩ := s.le.endOfBit
    refine ⟨rfl, fun hleft => ?_, fun hlast hempty => ?_, fun hlast hfull => ?_⟩
    · simp [hmore hleft]
    · simp [hdry hlast hempty, hempty, LineEncoder.dropBit_bits_eq_zero, hlast]
    · simp [hnext hlast hfull, LineEncoder.load]

/-- The line encoder moves only where no refill is due (R141, log 3). -/
theorem refillDue_of_lineEncoder (h : mover s = .lineEncoder) : refillDue s = false := by
  unfold mover at h
  split at h
  · cases h
  · split at h
    · cases h
    · simp_all

/-- A move that takes the last bit away is the end of a byte with nothing held (R139). -/
theorem leMove_runs_empty (hleft : s.le.bits ≠ 0) (hempty : (leMove s).le.bits = 0) :
    s.le.sub = .low ∧ s.le.bits = 1 ∧ s.le.holdFull = false := by
  obtain ⟨_, hbits, _⟩ | ⟨_, _, heq⟩ | ⟨_, heq⟩ | ⟨hsub, heq⟩ := leMove_cases s
  · exact absurd hbits hleft
  · exact absurd (by simpa [heq] using hempty) hleft
  · exact absurd (by simpa [heq] using hempty) hleft
  · rw [heq] at hempty
    obtain ⟨_, hload⟩ | ⟨hno, hload⟩ := s.le.dropBit.loadIfReady_cases <;> rw [hload] at hempty
    · simp [LineEncoder.load] at hempty
    · have hone : s.le.bits.val ≤ 1 := LineEncoder.dropBit_bits_eq_zero.1 hempty
      have hpos : s.le.bits.val ≠ 0 := fun h0 => hleft (Fin.ext h0)
      exact ⟨hsub, Fin.ext (by simp; omega), by simpa using fun hfull => hno ⟨hempty, hfull⟩⟩

/-- The sequencer takes no bit from the line encoder (R132 to R135). -/
theorem sequencerEdge_bits (s : State) : (sequencerEdge s).le.bits = s.le.bits := by
  obtain heq | ⟨_, _, _, heq⟩ | ⟨_, _, _, heq⟩ | ⟨_, _, heq⟩ | ⟨_, _, heq⟩ | ⟨_, _, heq⟩ := sequencerEdge_cases s <;>
    rw [heq] <;> simp

/-- Settles O40: of the four things a step can be, acceptance and the sequencer's edge take no bit from the encoder, and
a move that took the last one would have yielded to the refilling edge. -/
theorem noUnderrunInTx : Obligations.NoUnderrunInTx := by
  intro s t h hp hclk hleft hempty
  obtain ⟨hm, rfl⟩ | ⟨hm, hr, _⟩ | ⟨c, ⟨_, hidle, _⟩, _⟩ | ⟨_, _, rfl⟩ := step_cases h
  · obtain ⟨hsub, hbits, hfull⟩ := leMove_runs_empty (by simpa using hleft) hempty
    rw [popMover_le] at hsub hbits hfull
    have hnotDue := refillDue_of_lineEncoder hm
    simp [refillDue, hp, hsub, hbits, hfull, hclk] at hnotDue
  · exact ⟨hm, hr⟩
  · simp [hp] at hidle
  · rw [sequencerEdge_bits] at hempty
    exact absurd (by simpa using hempty) hleft

/- ## The bits on the wire -/

/-- The bits the line encoder still holds, in line order: what is left of LE_SHIFT, then the held byte (R34, R139). -/
def LineEncoder.pending (le : LineEncoder) : List Bool :=
  (msbFirst le.shift).take le.bits.val ++ if le.holdFull then msbFirst le.hold else []

theorem wireBits_eq (s : State) : wireBits s = s.log.line.map (·.bit) ++ s.le.pending :=
  List.append_assoc _ _ _

theorem wireBits_congr (hline : t.log.line = s.log.line) (hle : t.le = s.le) : wireBits t = wireBits s := by
  rw [wireBits_eq, wireBits_eq, hline, hle]

@[simp] theorem msbFirst_length (b : Byte) : (msbFirst b).length = 8 := by simp [msbFirst]

/-- Bit 7 goes first, and what is left is the byte shifted left (R53, R139). -/
theorem msbFirst_take_succ (b : Byte) {k : Nat} (hk : k < 8) :
    (msbFirst b).take (k + 1) = b.getLsbD 7 :: (msbFirst (b <<< 1)).take k := by
  interval_cases k <;> simp [msbFirst, List.finRange_succ, Fin.succ]

/-- EMIT into an empty holding register adds the byte's eight bits (R132). -/
theorem LineEncoder.pending_emit (hempty : le.holdFull = false) (b : Byte) :
    LineEncoder.pending { le with hold := b, holdFull := true } = le.pending ++ msbFirst b := by
  simp [pending, hempty]

/-- A load moves the held byte from LE_HOLD to LE_SHIFT (R139). -/
theorem LineEncoder.pending_loadIfReady (le : LineEncoder) : le.loadIfReady.pending = le.pending := by
  obtain ⟨⟨hbits, hfull⟩, hload⟩ | ⟨_, hload⟩ := le.loadIfReady_cases
  · simp [pending, hload, load, hbits, hfull, List.take_of_length_le]
  · rw [hload]

/-- The end of a bit period takes the first of the bits away (R139). -/
theorem LineEncoder.pending_dropBit (hpos : 0 < le.bits.val) :
    le.pending = le.currentBit :: le.dropBit.pending := by
  have hbits := msbFirst_take_succ le.shift (k := le.bits.val - 1) (by omega)
  rw [Nat.sub_add_cancel hpos] at hbits
  rw [pending, hbits]
  rfl

/-- A move of the line encoder keeps the bits: a load moves a byte over, and the end of a period a bit (R139). -/
theorem wireBits_leMove (h : EncoderInv s) : wireBits (leMove s) = wireBits s := by
  obtain ⟨_, hstart, _⟩ := h
  rw [wireBits_eq, wireBits_eq]
  obtain ⟨_, _, heq⟩ | ⟨_, _, heq⟩ | ⟨_, heq⟩ | ⟨hsub, heq⟩ := leMove_cases s <;> rw [heq]
  · rw [LineEncoder.pending_loadIfReady]
  · rfl
  · rfl
  · have hpos : 0 < s.le.bits.val := by
      refine Nat.pos_of_ne_zero fun h0 => ?_
      simp [hstart (Fin.ext h0)] at hsub
    rw [LineEncoder.pending_loadIfReady, LineEncoder.pending_dropBit hpos]
    simp [pulseOf]

theorem wireBits_emit (hempty : s.le.holdFull = false) (b : Byte) :
    wireBits (emit b s) = wireBits s ++ msbFirst b := by
  rw [wireBits_eq, wireBits_eq, emit_le, LineEncoder.pending_emit hempty, List.append_assoc, emit_log_line]

/-- A step of the sequencer either hands one byte over, whose eight bits it adds, or adds none (R132 to R135). -/
theorem sequencerEdge_wireBits (s : State) :
    (∃ b, (sequencerEdge s).log.trace = s.log.trace ++ [.byte b] ∧
      wireBits (sequencerEdge s) = wireBits s ++ msbFirst b) ∨
    (((sequencerEdge s).log.trace = s.log.trace ∨ (sequencerEdge s).log.trace = s.log.trace ++ [.latch]) ∧
      wireBits (sequencerEdge s) = wireBits s) := by
  obtain heq | ⟨_, hempty, _, heq⟩ | ⟨_, hempty, _, heq⟩ | ⟨_, _, heq⟩ | ⟨_, _, heq⟩ | ⟨_, _, heq⟩ :=
    sequencerEdge_cases s <;> rw [heq]
  · exact .inr ⟨.inl rfl, rfl⟩
  · exact .inl ⟨_, rfl, wireBits_emit hempty _⟩
  · exact .inl ⟨_, rfl, wireBits_emit hempty _⟩
  · exact .inr ⟨.inl rfl, rfl⟩
  · exact .inr ⟨.inl rfl, rfl⟩
  · exact .inr ⟨.inr (gapEnd_trace s), wireBits_congr (gapEnd_line s) (gapEnd_le s)⟩

/-- Settles O39: the line encoder moves bits and keeps them, acceptance touches neither encoder nor trace, and only the
sequencer's EMIT adds a byte. -/
theorem wireCarriesHandedOverBytes : Obligations.WireCarriesHandedOverBytes := by
  intro s t h hstep
  obtain ⟨hm, rfl⟩ | ⟨hm, hr, _⟩ | ⟨c, ⟨⟨hm, _⟩, _, _⟩, ha⟩ | ⟨⟨hm, _⟩, _, rfl⟩ := step_cases hstep
  · obtain ⟨_, _, hencoder, _, _⟩ := inv_popMover.2 h
    have hkeeps : wireBits (leMove (popMover s)) = wireBits s :=
      (wireBits_leMove hencoder).trans (wireBits_congr (by simp) (by simp))
    exact ⟨fun _ => ⟨hkeeps, by simp⟩, fun ⟨hclock, _⟩ => by simp [hm] at hclock⟩
  · exact ⟨fun hle => by simp [hm] at hle, fun ⟨_, hlow⟩ => by simp [hr] at hlow⟩
  · refine ⟨fun hle => by simp [hm] at hle, fun _ => .inr ?_⟩
    obtain ⟨hlog, _, hle, _⟩ := accept_keeps ha
    exact ⟨.inl (by simp [hlog]), wireBits_congr (by simp [hlog]) (by simp [hle])⟩
  · refine ⟨fun hle => by simp [hm] at hle, fun _ => ?_⟩
    have hbits : wireBits (atEdge s) = wireBits s :=
      wireBits_congr (by simp) (by simp)
    simpa [hbits] using sequencerEdge_wireBits (atEdge s)

end Sys2Proof.Machine
end

section
/-! PROOFS. FLUSH and DIGIT at their acceptance (R130, R184), the frame they send (R131), and the sequencer's edges in
TX, DRAIN and GAP (R132 to R136). -/

namespace Sys2Proof.Machine

variable {s t : State}

/- ## Acceptance -/

theorem exec_flush_of_done (h : s.initDone = true) : exec .flush s = .next (startFrame .flush s) := by
  simp [exec, execFlush, requireInit_of_done h]

theorem exec_digit_of_lt {d : Byte} (hlt : d.toNat < 10) (h : s.initDone = true) :
    exec (.digit d) s = .next (startFrame .digit (withPix (paintGlyph (glyphRom s.cfg ⟨d.toNat, hlt⟩)) s)) := by
  simp [exec, execDigit, requireInit_of_done h, hlt]

/-- Settles O17: the gate is open, so the frame starts. -/
theorem flushStartsTheFrame : Obligations.FlushStartsTheFrame :=
  fun _ h => exec_flush_of_done h

/-- OK is the only completion code numbered 0 (R201). -/
theorem Code.toBits_ne_zero {code : Code} (h : code ≠ .ok) : code.toBits ≠ 0#4 := by
  cases code with
  | ok => exact absurd rfl h
  | outOfRange | invalidDigit | resourceUnavailable | notInitialized | illegalCommand => simp [Code.toBits]

/-- FLUSH and DIGIT either raise an error code or start a frame, and FLUSH starts it from the buffer as it is
(R130, R184). -/
theorem exec_frame_cases {i : Instr} (hi : i = .flush ∨ ∃ d, i = .digit d) (he : exec i s = .next t) :
    (∃ code, code ≠ .ok ∧ t = raise i.op code s) ∨
    (∃ owner p, owner ≠ .none ∧ (i = .flush → p = s.pix) ∧ t = startFrame owner (withPix p s)) := by
  obtain herr | ⟨hother, _⟩ | ⟨hother, _⟩ | ⟨_, _, _, _, _, hother, _⟩ | ⟨hother, _⟩ | ⟨_, _, ht⟩ | ⟨_, _, hother, _⟩ |
    ⟨_, _, rfl, _, ht⟩ := exec_cases he
  · exact .inl herr
  · simp [hother] at hi
  · simp [hother] at hi
  · simp [hother] at hi
  · simp [hother] at hi
  · exact .inr ⟨.flush, s.pix, by simp, fun _ => rfl, ht⟩
  · simp [hother] at hi
  · exact .inr ⟨.digit, _, by simp, by simp, ht⟩

/-- Settles O29: the two outcomes of `exec_frame_cases`, read field by field. -/
theorem frameCommandsFrame : Obligations.FrameCommandsFrame := by
  intro i s t hi he
  obtain ⟨code, hcode, rfl⟩ | ⟨owner, p, howner, hflush, rfl⟩ := exec_frame_cases hi he
  · have herr : respCode (raise i.op code s).resp ≠ 0#4 := by simpa [raise] using Code.toBits_ne_zero hcode
    exact ⟨⟨rfl, rfl, rfl, rfl, rfl, rfl⟩, fun _ => rfl, .inr ⟨rfl, rfl, rfl, rfl, herr, rfl⟩⟩
  · exact ⟨⟨rfl, rfl, rfl, rfl, rfl, rfl⟩, hflush, .inl ⟨rfl, rfl, howner, rfl, rfl⟩⟩

/- ## The frame -/

/-- Byte `k` of the frame is FRAME_BYTE(k) (R131). -/
theorem getElem?_frameBytes (p : Vector Pixel 25) {k : Nat} (hk : k < 75) :
    (frameBytes p)[k]? = some (frameByte p ⟨k, hk⟩) := by
  simp [frameBytes, hk]

/-- FRAME_BYTE of byte `c` of pixel `i`: 0 is green, 1 red, 2 blue (R131). -/
theorem frameByte_of_pixel (p : Vector Pixel 25) {i c : Nat} (hi : i < 25) (hc : c < 3) :
    frameByte p ⟨3 * i + c, by omega⟩ = p[i].extractLsb' (16 - 8 * c) 8 := by
  have hpixel : (3 * i + c) / 3 = i := by omega
  have hchannel : (3 * i + c) % 3 = c := by omega
  simp only [frameByte, hpixel, hchannel]

/-- Settles O30: three bytes for each pixel, in the order of its channels on the wire. -/
theorem frameIsGreenRedBlueByPixel : Obligations.FrameIsGreenRedBlueByPixel := by
  refine fun p => ⟨frameBytes_length p, fun i => ⟨?_, ?_, ?_⟩⟩
  · rw [getElem?_frameBytes p (by omega)]
    exact congrArg some (frameByte_of_pixel p i.isLt (c := 0) (by omega))
  · rw [getElem?_frameBytes p (by omega)]
    exact congrArg some (frameByte_of_pixel p i.isLt (c := 1) (by omega))
  · rw [getElem?_frameBytes p (by omega)]
    exact congrArg some (frameByte_of_pixel p i.isLt (c := 2) (by omega))

/- ## The edges of the sequencer -/

theorem step_in_tx (h : edgeNext s) (hp : s.phase = .tx) : step s = .next (txEdge (atEdge s)) := by
  rw [step_of_busyEdge h (by simp [hp])]
  simp [sequencerEdge, hp]

theorem step_in_drain (h : edgeNext s) (hp : s.phase = .drain) : step s = .next (drainEdge (atEdge s)) := by
  rw [step_of_busyEdge h (by simp [hp])]
  simp [sequencerEdge, hp]

theorem step_in_gap (h : edgeNext s) (hp : s.phase = .gap) : step s = .next (gapEdge (atEdge s)) := by
  rw [step_of_busyEdge h (by simp [hp])]
  simp [sequencerEdge, hp]

/-- Settles O31: the three cases of `txEdge_cases`, by the holding register and by the last byte. -/
theorem txEdgeEmitsNextByte : Obligations.TxEdgeEmitsNextByte := by
  intro s h hp
  refine ⟨_, step_in_tx h hp, ?_⟩
  obtain ⟨hfull, heq⟩ | ⟨hempty, hlast, heq⟩ | ⟨hempty, hmore, heq⟩ := txEdge_cases (atEdge s) <;> rw [heq]
  · have hfull' : s.le.holdFull = true := by simpa using hfull
    simp [hp, hfull']
  · have hempty' : s.le.holdFull = false := by simpa using hempty
    have hlast' : s.byteCnt.val = 74 := by simpa using hlast
    simp [hempty', hlast']
  · have hempty' : s.le.holdFull = false := by simpa using hempty
    have hmore' : s.byteCnt.val ≠ 74 := by simpa using hmore
    simp [hp, hempty', hmore']

/-- Settles O32: the two cases of `drainEdge_cases`. -/
theorem drainEdgeWaitsForIdleLine : Obligations.DrainEdgeWaitsForIdleLine := by
  intro s h hp
  refine ⟨_, step_in_drain h hp, ?_⟩
  obtain ⟨hidle, heq⟩ | ⟨hbusy, heq⟩ := drainEdge_cases (atEdge s) <;> rw [heq]
  · have hidle' : s.le.holdFull = false ∧ s.le.bits = 0 := by simpa using hidle
    simp [hidle']
  · have hbusy' : ¬(s.le.holdFull = false ∧ s.le.bits = 0) := by simpa using hbusy
    simp [hp, hbusy']

theorem gapEdge_of_lt (h : s.gapCnt < gapCycles s.cfg - 1) : gapEdge s = { s with gapCnt := s.gapCnt + 1 } := if_pos h

theorem gapEdge_of_last (h : s.gapCnt = gapCycles s.cfg - 1) : gapEdge s = gapEnd s := by simp [gapEdge, h]

/-- In GAP and IDLE the line is low (R140). -/
theorem EncoderInv.line_low (h : EncoderInv s) (hp : s.phase = .gap ∨ s.phase = .idle) : s.le.dout = false := by
  obtain ⟨hdout, hbits, hquiet⟩ := h
  obtain ⟨_, hnone⟩ := (leIdle_iff _).1 (hquiet hp)
  simpa [hbits hnone] using hdout

/-- Settles O33: the tick of the gap; the encoder is not part of it, so `dout` is as low as the invariant has it. -/
theorem gapEdgeTicks : Obligations.GapEdgeTicks := by
  intro s h hp hlt
  refine ⟨_, step_in_gap h hp, ?_⟩
  rw [gapEdge_of_lt (by simpa using hlt)]
  have hlow : Inv s → s.le.dout = false := fun ⟨_, _, hencoder, _, _⟩ => hencoder.line_low (.inl hp)
  simpa [hp] using hlow

/-- What GAP_END responds to the owner, and that it responds to nobody after the post-reset gap (R135). -/
theorem gapEnd_response (s : State) :
    (s.curOp = .flush → (gapEnd s).resp = 0x80000000#32 ∧ (gapEnd s).rspPulse = true) ∧
    (s.curOp = .digit → (gapEnd s).resp = 0xC0000000#32 ∧ (gapEnd s).rspPulse = true) ∧
    (s.curOp = .none → (gapEnd s).resp = s.resp ∧ (gapEnd s).rspPulse = s.rspPulse) := by
  have hflush : respWord 0b100#3 .ok 0 = 0x80000000#32 := by decide
  have hdigit : respWord 0b110#3 .ok 0 = 0xC0000000#32 := by decide
  refine ⟨fun howner => ?_, fun howner => ?_, fun howner => ?_⟩
  · simpa [gapEnd, respondOwner, howner] using hflush
  · simpa [gapEnd, respondOwner, howner] using hdigit
  · simp [gapEnd, respondOwner, howner]

/-- Settles O34: the edge is GAP_END, whose response is `gapEnd_response`. -/
theorem gapEndLatchesAndResponds : Obligations.GapEndLatchesAndResponds := by
  intro s h hp hlast
  refine ⟨_, step_in_gap h hp, ?_⟩
  rw [gapEdge_of_last (by simpa using hlast)]
  have hresponse := gapEnd_response (atEdge s)
  simpa [cmdReady] using hresponse

/- ## The frames that LATCH closes -/

/-- A step closes a frame only by GAP_END; a reset edge takes BYTE events off the open frame at most (R135, R244). -/
theorem closedFrames_step (h : step s = .next t) :
    closedFrames t.log.trace = closedFrames s.log.trace ∨ (s.phase = .gap ∧ t = gapEnd (atEdge s)) := by
  obtain ⟨_, rfl⟩ | ⟨_, _, rfl⟩ | ⟨c, _, ha⟩ | ⟨_, _, rfl⟩ := step_cases h
  · exact .inl (by simp)
  · obtain ⟨hclosed, _⟩ := traceAfterReset_frames (popRst (popMover s))
    exact .inl (by simpa using hclosed)
  · obtain ⟨hlog, _⟩ := accept_keeps ha
    exact .inl (by simp [hlog])
  · obtain heq | ⟨_, _, _, heq⟩ | ⟨_, _, _, heq⟩ | ⟨_, _, heq⟩ | ⟨_, _, heq⟩ | ⟨hp, _, heq⟩ :=
      sequencerEdge_cases (atEdge s)
    · exact .inl (by simp [heq])
    · exact .inl (by simp [heq])
    · exact .inl (by simp [heq])
    · exact .inl (by simp [heq])
    · exact .inl (by simp [heq])
    · exact .inr ⟨by simpa using hp, heq⟩

/-- In the gap of a command, the open frame is the buffer's (R136). -/
theorem Inv.openFrame_of_gap (h : Inv s) (hp : s.phase = .gap) (howner : s.curOp ≠ .none) :
    openFrame s.log.trace = frameBytes s.pix := by
  obtain ⟨_, _, _, _, hframe⟩ := h
  exact (frameInv_of_gap hp).1 hframe howner

/-- Settles O45: a step that appends LATCH closes a frame, so it is GAP_END, and the invariant says which bytes that frame
has. -/
theorem latchClosesTheFrameOfTheBuffer : Obligations.LatchClosesTheFrameOfTheBuffer := by
  intro s t h hstep howner hlatch
  have hclosed : closedFrames t.log.trace = closedFrames s.log.trace ++ [openFrame s.log.trace] := by
    rw [hlatch, closedFrames_latch]
  obtain hsame | ⟨hp, rfl⟩ := closedFrames_step hstep
  · simp [hsame] at hclosed
  · rw [h.openFrame_of_gap hp howner] at hclosed
    exact ⟨hclosed, by rw [hlatch, openFrame_latch], by simp⟩

/-- Without a reset, a step after which the post-reset gap lasts was already in it, and appends no event: every other
way into GAP has an owner (R133, R232). -/
theorem step_in_postResetGap (howner : OwnerInv s) (h : step s = .next t) (hr : rstLevel s = false)
    (hp : t.phase = .gap) (hnone : t.curOp = .none) :
    s.phase = .gap ∧ s.curOp = .none ∧ t.log.trace = s.log.trace := by
  obtain ⟨_, hsome, _⟩ := howner
  obtain ⟨_, rfl⟩ | ⟨_, hrst, _⟩ | ⟨c, ⟨_, hidle, _⟩, ha⟩ | ⟨_, _, rfl⟩ := step_cases h
  · simpa using And.intro hp hnone
  · simp [hr] at hrst
  · obtain hsame | ⟨_, htx, _⟩ := accept_phase ha
    · simp [hp, hidle] at hsame
    · simp [hp] at htx
  · obtain heq | ⟨_, _, _, heq⟩ | ⟨htx, _, _, heq⟩ | ⟨hdrain, _, heq⟩ | ⟨hgap, _, heq⟩ | ⟨_, _, heq⟩ :=
      sequencerEdge_cases (atEdge s) <;> rw [heq] at hp hnone ⊢
    · simpa using And.intro hp hnone
    · simp at hp
    · have hgap : s.phase = .gap := by simpa using hp
      simp [hgap] at htx
    · exact absurd (by simpa using hnone) (hsome (.inr (by simpa using hdrain)))
    · simpa using And.intro hgap hnone
    · simp at hp

/-- One frame more keeps the counts, if it has 75 bytes, or is the first and empty (R136, R232). -/
theorem wholeFrames_append {l : List (List Byte)} {f : List Byte} (htail : ∀ g ∈ l.tail, g.length = 75)
    (hhead : ∀ g ∈ l.head?, g = [] ∨ g.length = 75) (hf : f.length = 75 ∨ (l = [] ∧ f = [])) :
    (∀ g ∈ (l ++ [f]).tail, g.length = 75) ∧ (∀ g ∈ (l ++ [f]).head?, g = [] ∨ g.length = 75) := by
  cases l with
  | nil => simpa using hf.symm
  | cons a l =>
    have hlen : f.length = 75 := by simpa using hf
    refine ⟨fun g hg => ?_, by simpa using hhead⟩
    obtain hg | rfl : g ∈ l ∨ g = f := by simpa using hg
    · exact htail g hg
    · exact hlen

/-- Settles O46: only GAP_END closes a frame, a command's with the 75 bytes of its buffer, the post-reset gap's before any
event. -/
theorem stepKeepsWholeFrames : Obligations.StepKeepsWholeFrames := by
  rintro s t h ⟨htail, hhead, hfirst⟩ hr hstep
  have hpost : t.phase = .gap → t.curOp = .none → t.log.trace = [] := by
    intro hp hnone
    obtain ⟨howner, _⟩ := h
    obtain ⟨hp', hnone', hsame⟩ := step_in_postResetGap howner hstep hr hp hnone
    rw [hsame, hfirst hp' hnone']
  obtain ⟨htail', hhead'⟩ : (∀ f ∈ (closedFrames t.log.trace).tail, f.length = 75) ∧
      (∀ f ∈ (closedFrames t.log.trace).head?, f = [] ∨ f.length = 75) := by
    obtain hsame | ⟨hp, rfl⟩ := closedFrames_step hstep
    · rw [hsame]
      exact ⟨htail, hhead⟩
    · rw [gapEnd_trace, hostMove_log_trace, closedFrames_latch]
      refine wholeFrames_append (by simpa using htail) (by simpa using hhead) ?_
      by_cases howner : s.curOp = .none
      · exact .inr (by simp [hfirst hp howner, closedFrames, openFrame, cutTrace])
      · exact .inl (by simp [h.openFrame_of_gap hp howner])
  exact ⟨htail', hhead', hpost⟩

end Sys2Proof.Machine
end

section
/-! PROOFS. Runs through the gap (R134, R135, R232): any schedule with the right number of clock edges ends it. -/

namespace Sys2Proof.Machine

variable {s t u : State} {m : Mover} {moves later : List Mover}

/- ## Runs, and who moves -/

/-- The first step of a run that goes on. -/
theorem core_run_succ_inv {k : Nat} (h : core.run (k + 1) s = .next t) :
    ∃ u, step s = .next u ∧ core.run k u = .next t := by
  cases hstep : step s with
  | next u => exact ⟨u, rfl, core_run_succ hstep k ▸ h⟩
  | fault r => simp [Host.Core.run, core, hstep] at h
  | refused r => simp [Host.Core.run, core, hstep] at h

/-- A run goes on from where its beginning ends. -/
theorem core_run_add {j : Nat} (h : core.run j s = .next u) (k : Nat) : core.run (j + k) s = core.run k u := by
  induction j generalizing s with
  | zero =>
    obtain rfl : s = u := Host.Outcome.next.inj h
    rw [Nat.zero_add]
  | succ j ih =>
    obtain ⟨v, hstep, hrun⟩ := core_run_succ_inv h
    rw [Nat.add_right_comm, core_run_succ hstep, ih hrun]

/-- What every step keeps, a run keeps. -/
theorem core_run_keeps {P : State → Prop} (hkeep : ∀ s t, P s → step s = .next t → P t) {k : Nat} (hs : P s)
    (h : core.run k s = .next t) : P t := by
  induction k generalizing s with
  | zero =>
    obtain rfl : s = t := Host.Outcome.next.inj h
    exact hs
  | succ k ih =>
    obtain ⟨u, hstep, hrun⟩ := core_run_succ_inv h
    exact ih (hkeep s u hs hstep) hrun

theorem mover_of_clock (h : s.env.sched = .clock :: later) : mover s = .clock := by simp [mover, scheduled, h]

/-- The scheduled line encoder moves, but where a refill is due (R141). -/
theorem mover_of_lineEncoder (h : s.env.sched = .lineEncoder :: later) (hdue : refillDue s = false) :
    mover s = .lineEncoder := by simp [mover, scheduled, h, hdue]

/-- Outside TX no refill is due (R141). -/
theorem refillDue_of_not_tx (hp : s.phase ≠ .tx) : refillDue s = false := by simp [refillDue, hp]

theorem rstLevel_of_nil (h : s.env.rstIn = []) : rstLevel s = false := by simp [rstLevel, h]

/-- A clock edge is scheduled, and no reset is coming. -/
theorem edgeNext_of_clock (h : s.env.sched = .clock :: later) (hr : s.env.rstIn = []) : edgeNext s :=
  ⟨mover_of_clock h, rstLevel_of_nil hr⟩

/- ## The gap, move by move -/

/-- From `s`, in GAP, to `u`, still in GAP, `n` clock edges have been counted, and nothing else of the block but its
line encoder and the pulse has changed (R134). -/
structure GapCounted (s u : State) (n : Nat) : Prop where
  phase : u.phase = .gap
  gapCnt : u.gapCnt = s.gapCnt + n
  curOp : u.curOp = s.curOp
  pix : u.pix = s.pix
  resp : u.resp = s.resp
  cfg : u.cfg = s.cfg
  trace : u.log.trace = s.log.trace
  rstIn : u.env.rstIn = []

theorem GapCounted.refl (hp : s.phase = .gap) (hr : s.env.rstIn = []) : GapCounted s s 0 :=
  ⟨hp, rfl, rfl, rfl, rfl, rfl, rfl, hr⟩

theorem GapCounted.trans {a b : Nat} (h : GapCounted s u a) (h' : GapCounted u t b) : GapCounted s t (a + b) where
  phase := h'.phase
  gapCnt := by rw [h'.gapCnt, h.gapCnt, Nat.add_assoc]
  curOp := h'.curOp.trans h.curOp
  pix := h'.pix.trans h.pix
  resp := h'.resp.trans h.resp
  cfg := h'.cfg.trans h.cfg
  trace := h'.trace.trans h.trace
  rstIn := h'.rstIn

/-- One move in GAP before the last edge: a tick if it is the clock's, and none if it is the line encoder's (R134). -/
theorem step_counts_gap (hp : s.phase = .gap) (hr : s.env.rstIn = []) (hsched : s.env.sched = m :: later)
    (hlt : s.gapCnt + [m].count .clock < gapCycles s.cfg) :
    ∃ u, step s = .next u ∧ u.env.sched = later ∧ GapCounted s u ([m].count .clock) := by
  cases m with
  | clock =>
    have htick : s.gapCnt < gapCycles s.cfg - 1 := Nat.lt_sub_of_add_lt (by simpa using hlt)
    refine ⟨_, step_in_gap (edgeNext_of_clock hsched hr) hp, ?_⟩
    rw [gapEdge_of_lt (by simpa using htick)]
    exact ⟨by simp [hsched], by constructor <;> simp [hp, hr]⟩
  | lineEncoder =>
    have hm := mover_of_lineEncoder hsched (refillDue_of_not_tx (by simp [hp]))
    exact ⟨_, step_of_lineEncoder hm, by simp [hsched], by constructor <;> simp [hp, hr]⟩

/-- Any moves that hold fewer clock edges than are left of the gap (R134). -/
theorem run_counts_gap (hp : s.phase = .gap) (hr : s.env.rstIn = []) (hsched : s.env.sched = moves ++ later)
    (hlt : s.gapCnt + moves.count .clock < gapCycles s.cfg) :
    ∃ u : State, core.run moves.length s = .next u ∧ u.env.sched = later ∧ GapCounted s u (moves.count .clock) := by
  induction moves generalizing s with
  | nil => exact ⟨s, rfl, hsched, .refl hp hr⟩
  | cons m moves ih =>
    have hcount : (m :: moves).count .clock = [m].count .clock + moves.count .clock :=
      List.count_append (l₁ := [m])
    obtain ⟨v, hstep, hsched', hv⟩ := step_counts_gap hp hr hsched (by omega)
    obtain ⟨u, hrun, hlater, hu⟩ := ih hv.phase hv.rstIn hsched' (by rw [hv.gapCnt, hv.cfg]; omega)
    refine ⟨u, ?_, hlater, hcount ▸ hv.trans hu⟩
    rw [List.length_cons, core_run_succ hstep, hrun]

/-- When the clock edges left of the gap are taken, the last one is GAP_END (R135). -/
theorem run_ends_gap (hp : s.phase = .gap) (hr : s.env.rstIn = [])
    (hcount : s.gapCnt + moves.count .clock + 1 = gapCycles s.cfg) (hsched : s.env.sched = moves ++ .clock :: later) :
    ∃ u : State, core.run (moves.length + 1) s = .next (gapEnd (atEdge u)) ∧ GapCounted s u (moves.count .clock) := by
  obtain ⟨u, hrun, hlater, hu⟩ := run_counts_gap hp hr hsched (by omega)
  have hlast : u.gapCnt = gapCycles u.cfg - 1 := by
    rw [hu.gapCnt, hu.cfg]
    omega
  have hstep : step u = .next (gapEnd (atEdge u)) := by
    rw [step_in_gap (edgeNext_of_clock hlater hu.rstIn) hu.phase, gapEdge_of_last (by simpa using hlast)]
  exact ⟨u, by rw [core_run_add hrun, core_run_succ hstep, core_run_zero], hu⟩

/-- Settles O53: every proper beginning of the moves counts its clock edges, and the last edge is GAP_END. -/
theorem gapEndsAfterGapCycles : Obligations.GapEndsAfterGapCycles := by
  intro s moves later hp hr hcount hsched
  constructor
  · intro j hj
    have hsplit : s.env.sched = moves.take j ++ (moves.drop j ++ .clock :: later) := by
      rw [← List.append_assoc, List.take_append_drop, hsched]
    have hfewer : (moves.take j).count .clock ≤ moves.count .clock := (List.take_sublist j moves).count_le _
    obtain ⟨u, hrun, _, hu⟩ := run_counts_gap hp hr hsplit (by omega)
    rw [List.length_take_of_le hj] at hrun
    exact ⟨u, hrun, hu.phase, hu.gapCnt, hu.curOp, hu.trace⟩
  · obtain ⟨u, hrun, hu⟩ := run_ends_gap hp hr hcount hsched
    obtain ⟨hflush, hdigit, hnone⟩ := gapEnd_response (atEdge u)
    refine ⟨_, hrun, by simp, by simp [hu.trace], fun howner => ?_, fun howner => ?_, fun howner => ?_⟩
    · simpa [hu.resp] using hnone (by simp [hu.curOp, howner])
    · exact hflush (by simp [hu.curOp, howner])
    · exact hdigit (by simp [hu.curOp, howner])

end Sys2Proof.Machine
end

section
/-! PROOFS. FLUSH and DIGIT run to their end (R130 to R136, R184): what some schedule of clock edges and line-encoder
moves (log 3) can reach, and through it the whole frame. -/

namespace Sys2Proof.Machine

variable {s t u : State} {later : List Mover}

/- ## The buffer DIGIT leaves -/

/-- The cell of a physical index is the one the serpentine map sends there (R163). -/
theorem mapIndex_eq_iff : ∀ (cell : Fin 5 × Fin 5) (i : Fin 25),
    mapIndex cell.1 cell.2 = i ↔ cell = mapInverse i := by decide

theorem mem_gridCells : ∀ cell : Fin 5 × Fin 5, cell ∈ gridCells := by decide

/-- Painting a lit cell colours its own pixel and no other (R184). -/
theorem getElem_paintCell (glyph : BitVec 25) (p : Vector Pixel 25) (cell : Fin 5 × Fin 5) (i : Fin 25) :
    (paintCell glyph p cell)[i] =
      if cell = mapInverse i ∧ lit glyph cell.1 cell.2 then glyphColor else p[i] := by
  unfold paintCell
  by_cases hlit : lit glyph cell.1 cell.2 = true
  · simp only [hlit, if_true, and_true, ← mapIndex_eq_iff, Fin.getElem_fin, Vector.getElem_set, Fin.ext_iff]
  · simp [hlit]

/-- Painting cells one after another colours the pixels of the lit ones among them (R184). -/
theorem getElem_foldl_paintCell (glyph : BitVec 25) (cells : List (Fin 5 × Fin 5)) (p : Vector Pixel 25) (i : Fin 25) :
    (cells.foldl (paintCell glyph) p)[i] =
      if mapInverse i ∈ cells ∧ lit glyph (mapInverse i).1 (mapInverse i).2 then glyphColor else p[i] := by
  induction cells generalizing p with
  | nil => simp
  | cons cell cells ih =>
    rw [List.foldl_cons, ih, getElem_paintCell]
    by_cases hcell : cell = mapInverse i
    · by_cases hlit : lit glyph (mapInverse i).1 (mapInverse i).2 = true <;> simp [hcell, hlit]
    · simp [hcell, Ne.symm hcell]

/-- The procedure of R184 leaves the buffer that R183 describes. -/
theorem paintGlyph_eq_render (glyph : BitVec 25) : paintGlyph glyph = Vector.ofFn (renderPixel glyph) := by
  ext i hi : 1
  have hpixel := getElem_foldl_paintCell glyph gridCells zeroPixels ⟨i, hi⟩
  simpa [paintGlyph, renderPixel, mem_gridCells] using hpixel

/- ## What some schedule can reach -/

/-- `s` with the schedule `sched` (log 3). -/
def withSched (sched : List Mover) (s : State) : State := { s with env := { s.env with sched := sched } }

/-- Some moves lead from `s` to `t`, whatever is scheduled after them; the schedules of `s` and `t` themselves do not
matter. -/
def Reaches (s t : State) : Prop :=
  ∃ moves : List Mover, ∀ later,
    core.run moves.length (withSched (moves ++ later) s) = .next (withSched later t)

theorem Reaches.refl (s : State) : Reaches s s := ⟨[], fun _ => rfl⟩

theorem Reaches.of_step (m : Mover) (h : ∀ later, step (withSched (m :: later) s) = .next (withSched later t)) :
    Reaches s t := ⟨[m], fun later => core_run_succ (h later) 0⟩

theorem Reaches.trans (h : Reaches s u) (h' : Reaches u t) : Reaches s t := by
  obtain ⟨moves, hrun⟩ := h
  obtain ⟨moves', hrun'⟩ := h'
  refine ⟨moves ++ moves', fun later => ?_⟩
  rw [List.append_assoc, List.length_append, core_run_add (hrun _), hrun']

/-- The block does not read the schedule. -/
theorem leMove_withSched (sched : List Mover) (s : State) : leMove (withSched sched s) = withSched sched (leMove s) := by
  obtain ⟨hsub, hbits, heq⟩ | ⟨hsub, hbits, heq⟩ | ⟨hsub, heq⟩ | ⟨hsub, heq⟩ := leMove_cases s <;> rw [heq]
  · exact leMove_of_noBits (s := withSched sched s) hsub hbits
  · exact leMove_of_start (s := withSched sched s) hsub hbits
  · exact leMove_of_high (s := withSched sched s) hsub
  · exact leMove_of_low (s := withSched sched s) hsub

theorem txEdge_withSched (sched : List Mover) (s : State) : txEdge (withSched sched s) = withSched sched (txEdge s) := by
  have hadvance : ∀ u, advanceByte (withSched sched u) = withSched sched (advanceByte u) :=
    fun _ => by
      unfold advanceByte
      rw [apply_dite (withSched sched)]
      rfl
  unfold txEdge
  rw [apply_ite (withSched sched), ← hadvance]
  rfl

theorem drainEdge_withSched (sched : List Mover) (s : State) :
    drainEdge (withSched sched s) = withSched sched (drainEdge s) := by
  unfold drainEdge
  rw [apply_ite (withSched sched)]
  rfl

theorem gapEdge_withSched (sched : List Mover) (s : State) :
    gapEdge (withSched sched s) = withSched sched (gapEdge s) := by
  have hrespond : ∀ owner u, respondOwner owner (withSched sched u) = withSched sched (respondOwner owner u) :=
    fun owner _ => by cases owner <;> rfl
  have hend : gapEnd (withSched sched s) = withSched sched (gapEnd s) :=
    congrArg (fun u : State => { u with curOp := .none }) (hrespond s.curOp (latch { s with phase := .idle }))
  unfold gapEdge
  rw [hend, apply_ite (withSched sched), apply_ite (withSched sched)]
  rfl

theorem sequencerEdge_withSched (sched : List Mover) (s : State) :
    sequencerEdge (withSched sched s) = withSched sched (sequencerEdge s) := by
  have hphase : (withSched sched s).phase = s.phase := rfl
  unfold sequencerEdge
  rw [hphase]
  cases s.phase with
  | idle => rfl
  | tx => exact txEdge_withSched sched s
  | drain => exact drainEdge_withSched sched s
  | gap => exact gapEdge_withSched sched s

theorem popRst_of_nil (hr : s.env.rstIn = []) : popRst s = s := by
  have htail : s.env.rstIn.tail = s.env.rstIn := by rw [hr, List.tail_nil]
  unfold popRst
  rw [htail]

/-- A host with nothing left to do makes no move. -/
theorem hostMove_of_nil (hh : s.env.host = []) : hostMove s = s := by simp [hostMove, hh]

/-- The line encoder can move where no refill is due (R141). -/
theorem reaches_leMove (hdue : refillDue s = false) : Reaches s (leMove s) := by
  refine .of_step .lineEncoder fun later => ?_
  have hm : mover (withSched (.lineEncoder :: later) s) = .lineEncoder := mover_of_lineEncoder rfl hdue
  rw [step_of_lineEncoder hm, ← leMove_withSched]
  rfl

/-- The clock can move, and outside IDLE that is the sequencer's edge, where the host has nothing left to do and no reset
is coming. -/
theorem reaches_edge (hp : s.phase ≠ .idle) (hh : s.env.host = []) (hr : s.env.rstIn = []) :
    Reaches s (sequencerEdge (dropPulse s)) := by
  refine .of_step .clock fun later => ?_
  have hedge : edgeNext (withSched (.clock :: later) s) := edgeNext_of_clock rfl hr
  have hpop : popRst (popMover (withSched (.clock :: later) s)) = withSched later s :=
    popRst_of_nil (s := withSched later s) hr
  have hhost : hostMove (dropPulse (withSched later s)) = withSched later (dropPulse s) :=
    hostMove_of_nil (s := dropPulse (withSched later s)) hh
  rw [step_of_busyEdge hedge hp, hpop, hhost, sequencerEdge_withSched]

/- ## The line encoder at work -/

/-- An upper bound on the moves until the line encoder is idle: three for each bit left of LE_SHIFT, less those of the
current bit that are over, and more than eight bits' worth for the held byte (R139). -/
def LineEncoder.movesLeft (le : LineEncoder) : Nat :=
  3 * le.bits.val + (match le.sub with | .start => 2 | .high => 1 | .low => 0) + 25 * le.holdFull.toNat

theorem LineEncoder.movesLeft_loadIfReady {le : LineEncoder} (hsub : le.sub = .start) :
    le.loadIfReady.movesLeft ≤ le.movesLeft := by
  obtain ⟨⟨hbits, hfull⟩, hload⟩ | ⟨_, hload⟩ := le.loadIfReady_cases
  · simp [hload, load, movesLeft, hbits, hfull, hsub]
  · rw [hload]

/-- Every move of a busy line encoder brings it nearer to idle (R139). -/
theorem movesLeft_leMove (h : EncoderInv s) (hbusy : leIdle s.le ≠ true) :
    (leMove s).le.movesLeft < s.le.movesLeft := by
  obtain ⟨_, hstart, _⟩ := h
  obtain ⟨hsub, hbits, heq⟩ | ⟨hsub, _, heq⟩ | ⟨hsub, heq⟩ | ⟨hsub, heq⟩ := leMove_cases s <;> rw [heq]
  · have hfull : s.le.holdFull = true := by
      simpa [leIdle_iff, hbits] using hbusy
    simp [LineEncoder.loadIfReady_of_ready hbits hfull, LineEncoder.load, LineEncoder.movesLeft, hbits, hfull, hsub]
  · simp [LineEncoder.movesLeft, hsub]
  · simp [LineEncoder.movesLeft, hsub]
  · have hpos : s.le.bits.val ≠ 0 := fun h0 => by simp [hstart (Fin.ext h0)] at hsub
    calc s.le.dropBit.loadIfReady.movesLeft
        ≤ s.le.dropBit.movesLeft := LineEncoder.movesLeft_loadIfReady rfl
      _ < s.le.movesLeft := by
        simp only [LineEncoder.movesLeft, hsub, LineEncoder.dropBit_bits_val, LineEncoder.dropBit_sub,
          LineEncoder.dropBit_holdFull]
        omega

/-- The line encoder can move until something is done that holds at the latest when it is idle, if no refill is due before
that. What its moves keep, still holds then. -/
theorem reaches_by_lineEncoder {P done : State → Prop} (hkeep : ∀ u, P u → P (leMove u))
    (hinv : ∀ u, P u → EncoderInv u) (hidle : ∀ u, leIdle u.le = true → done u)
    (hfree : ∀ u, P u → ¬done u → refillDue u = false) (hs : P s) : ∃ t, Reaches s t ∧ P t ∧ done t := by
  induction hn : s.le.movesLeft using Nat.strong_induction_on generalizing s with
  | _ n ih =>
    by_cases hdone : done s
    · exact ⟨s, .refl s, hs, hdone⟩
    · have hless := movesLeft_leMove (hinv s hs) fun hstill => hdone (hidle s hstill)
      obtain ⟨t, hreach, ht, hdone'⟩ := ih _ (hn ▸ hless) (hkeep s hs) rfl
      exact ⟨t, (reaches_leMove (hfree s hs hdone)).trans hreach, ht, hdone'⟩

/- ## The frame under way -/

/-- A frame of the buffer `p`, owned by `owner`, is under way in `phase`: `n` of its bytes have been handed over since the
trace was `before`, the host has nothing left to do, and no reset is coming. -/
structure InFrame (owner : CurOp) (p : Vector Pixel 25) (before : List BusEvent) (phase : Phase) (n : Nat)
    (s : State) : Prop where
  inv : Inv s
  phase_eq : s.phase = phase
  byteCnt : phase = .tx → s.byteCnt.val = n
  curOp : s.curOp = owner
  pix : s.pix = p
  trace : s.log.trace = before ++ ((frameBytes p).take n).map .byte
  host : s.env.host = []
  rstIn : s.env.rstIn = []

variable {owner : CurOp} {p : Vector Pixel 25} {before : List BusEvent} {phase : Phase} {n : Nat}

theorem InFrame.encoderInv (h : InFrame owner p before phase n s) : EncoderInv s := by
  obtain ⟨_, _, hencoder, _, _⟩ := h.inv
  exact hencoder

theorem InFrame.leMove (h : InFrame owner p before phase n s) : InFrame owner p before phase n (leMove s) where
  inv := inv_leMove h.inv
  phase_eq := by simp [h.phase_eq]
  byteCnt := by simpa using h.byteCnt
  curOp := by simp [h.curOp]
  pix := by simp [h.pix]
  trace := by simp [h.trace]
  host := by simp [h.host]
  rstIn := by simp [h.rstIn]

/-- Handing over byte `n` makes the trace of `n` bytes one of `n + 1` (R132). -/
theorem trace_emit (before : List BusEvent) (p : Vector Pixel 25) (k : Fin 75) :
    before ++ ((frameBytes p).take k.val).map .byte ++ [.byte (frameByte p k)] =
      before ++ ((frameBytes p).take (k.val + 1)).map .byte := by
  rw [← frameBytes_take_succ]
  simp

theorem InFrame.reaches_edge (h : InFrame owner p before phase n s) (hbusy : phase ≠ .idle) :
    Reaches s (sequencerEdge (dropPulse s)) :=
  Machine.reaches_edge (by rwa [h.phase_eq]) h.host h.rstIn

/-- EMIT (R132): from an empty holding register, one edge hands over the next byte, and after byte 74 DRAIN comes. -/
theorem InFrame.emit_edge (h : InFrame owner p before .tx n s) (hempty : s.le.holdFull = false) :
    (n = 74 ∧ InFrame owner p before .drain 75 (sequencerEdge (dropPulse s))) ∨
    (n < 74 ∧ InFrame owner p before .tx (n + 1) (sequencerEdge (dropPulse s))) := by
  have hinv : Inv (sequencerEdge (dropPulse s)) := inv_sequencerEdge (inv_dropPulse h.inv)
  have hedge : sequencerEdge (dropPulse s) = txEdge (dropPulse s) := by simp [sequencerEdge, h.phase_eq]
  obtain rfl : s.byteCnt.val = n := h.byteCnt rfl
  have htrace : (emit (frameByte s.pix s.byteCnt) s).log.trace =
      before ++ ((frameBytes p).take (s.byteCnt.val + 1)).map .byte := by
    rw [emit_log_trace, h.trace, h.pix, trace_emit]
  obtain ⟨hfull, _⟩ | ⟨_, hlast, heq⟩ | ⟨_, hmore, heq⟩ := txEdge_cases (dropPulse s)
  · simp [hempty] at hfull
  · rw [dropPulse_byteCnt] at hlast
    rw [hlast] at htrace
    rw [hedge, heq] at hinv ⊢
    exact .inl ⟨hlast, hinv, rfl, by simp, h.curOp, h.pix, htrace, h.host, h.rstIn⟩
  · rw [dropPulse_byteCnt] at hmore
    rw [hedge, heq] at hinv ⊢
    exact .inr ⟨by omega, hinv, h.phase_eq, fun _ => rfl, h.curOp, h.pix, htrace, h.host, h.rstIn⟩

/-- In TX the line encoder can empty the holding register: while it is full, no refill is due (R139, R141). -/
theorem InFrame.reaches_empty (h : InFrame owner p before phase n s) :
    ∃ t, Reaches s t ∧ InFrame owner p before phase n t ∧ t.le.holdFull = false := by
  refine reaches_by_lineEncoder (fun _ hu => hu.leMove) (fun _ hu => hu.encoderInv) (fun u hidle => ?_)
    (fun u _ hfull => ?_) h
  · exact ((leIdle_iff _).1 hidle).1
  · simp [refillDue, hfull]

/-- From TX, DRAIN can be reached with the whole frame handed over, byte by byte (R132). -/
theorem InFrame.reaches_drain (h : InFrame owner p before .tx n s) :
    ∃ t, Reaches s t ∧ InFrame owner p before .drain 75 t := by
  induction hleft : 74 - n using Nat.strong_induction_on generalizing n s with
  | _ left ih =>
    obtain ⟨u, hreach, hu, hempty⟩ := h.reaches_empty
    have hnext := hreach.trans (hu.reaches_edge (by simp))
    obtain ⟨_, hdrain⟩ | ⟨hlt, htx⟩ := hu.emit_edge hempty
    · exact ⟨_, hnext, hdrain⟩
    · obtain ⟨t, hrest, ht⟩ := ih (74 - (n + 1)) (by omega) htx rfl
      exact ⟨t, hnext.trans hrest, ht⟩

/-- From DRAIN, the gap can be reached: the line encoder sends what it holds, then comes DRAIN_DONE (R133). -/
theorem InFrame.reaches_gap (h : InFrame owner p before .drain n s) :
    ∃ t, Reaches s t ∧ InFrame owner p before .gap n t ∧ t.gapCnt = 0 := by
  obtain ⟨u, hreach, hu, hidle⟩ := reaches_by_lineEncoder (fun _ hu => hu.leMove) (fun _ hu => hu.encoderInv)
    (fun _ => id) (fun u hu _ => refillDue_of_not_tx (by simp [hu.phase_eq])) h
  refine ⟨_, hreach.trans (hu.reaches_edge (by simp)), ?_⟩
  have hinv : Inv (sequencerEdge (dropPulse u)) := inv_sequencerEdge (inv_dropPulse hu.inv)
  have hedge : sequencerEdge (dropPulse u) = drainEdge (dropPulse u) := by simp [sequencerEdge, hu.phase_eq]
  have hdone : drainEdge (dropPulse u) = { dropPulse u with phase := .gap, gapCnt := 0 } := if_pos hidle
  rw [hedge, hdone] at hinv ⊢
  exact ⟨⟨hinv, rfl, by simp, hu.curOp, hu.pix, hu.trace, hu.host, hu.rstIn⟩, rfl⟩

/- ## From acceptance to the response -/

/-- `i` is FLUSH or a valid DIGIT, and `p` is the buffer it sends when `s` accepts it (R130, R184). -/
def SendsBuffer (i : Instr) (p : Vector Pixel 25) (s : State) : Prop :=
  (i = .flush ∧ p = s.pix) ∨
    ∃ (d : Byte) (h : d.toNat < 10), i = .digit d ∧ p = Vector.ofFn (renderPixel (glyphRom s.cfg ⟨d.toNat, h⟩))

/-- Such a command starts the frame of its buffer, for an owner that gets the command's own OP in the response
(R130, R135, R184). -/
theorem exec_sendsBuffer {i : Instr} (hi : SendsBuffer i p s) : ∃ owner, owner ≠ .none ∧
    (∀ u, u.curOp = owner → (gapEnd u).resp = respWord i.op .ok 0) ∧
    (∀ u, u.initDone = true → u.pix = s.pix → u.cfg = s.cfg → exec i u = .next (startFrame owner (withPix p u))) := by
  have hflush : respWord 0b100#3 .ok 0 = 0x80000000#32 := by decide
  have hdigit : respWord 0b110#3 .ok 0 = 0xC0000000#32 := by decide
  obtain ⟨rfl, rfl⟩ | ⟨d, hlt, rfl, rfl⟩ := hi
  · refine ⟨.flush, by simp, fun u howner => ?_, fun u hinit hpix _ => ?_⟩
    · obtain ⟨hresponse, _, _⟩ := gapEnd_response u
      exact (hresponse howner).1.trans hflush.symm
    · rw [exec_flush_of_done hinit, ← hpix]
      rfl
  · refine ⟨.digit, by simp, fun u howner => ?_, fun u hinit _ hcfg => ?_⟩
    · obtain ⟨_, hresponse, _⟩ := gapEnd_response u
      exact (hresponse howner).1.trans hdigit.symm
    · rw [exec_digit_of_lt hlt hinit, hcfg, paintGlyph_eq_render]

/-- From IDLE after INIT, an offered command that sends a buffer can be accepted, and its frame is then under way at
byte 0 (R100, R130, R184). -/
theorem reaches_frame {c : Word} {i : Instr} (h : Inv s) (hp : s.phase = .idle) (hinit : s.initDone = true)
    (hr : s.env.rstIn = []) (hh : s.env.host = [.offer c]) (hd : decode c = .ok i) (hi : SendsBuffer i p s) :
    ∃ owner t, Reaches s t ∧ InFrame owner p s.log.trace .tx 0 t ∧
      ∀ u, u.curOp = owner → (gapEnd u).resp = respWord i.op .ok 0 := by
  obtain ⟨owner, hsome, hresp, hexec⟩ := exec_sendsBuffer hi
  refine ⟨owner, startFrame owner (withPix p (popHost (dropPulse s))), .of_step .clock fun later => ?_, ?_, hresp⟩
  · have haccept : acceptNext c (withSched (.clock :: later) s) := ⟨edgeNext_of_clock rfl hr, hp, offered_of_host hh⟩
    have hpop : popRst (popMover (withSched (.clock :: later) s)) = withSched later s :=
      popRst_of_nil (s := withSched later s) hr
    rw [step_of_acceptNext haccept, accept_of_ok hd, atAcceptance, hpop]
    exact hexec (popHost (dropPulse (withSched later s))) hinit rfl rfl
  · have hinv : Inv (withPix p (popHost (dropPulse s))) := inv_withPix (inv_popHost.2 (inv_dropPulse h)) hp
    exact ⟨inv_startFrame hinv hp rfl hinit hsome, rfl, fun _ => rfl, rfl, rfl, by simp, by simp [hh], hr⟩

/-- A host that has nothing left to do stays so. -/
theorem step_keeps_empty_host (s t : State) (hh : s.env.host = []) (h : step s = .next t) : t.env.host = [] := by
  have hedge : (atEdge s).env.host = [] := by
    have hbefore : (dropPulse (popRst (popMover s))).env.host = [] := by simp [hh]
    rwa [atEdge, hostMove_of_nil hbefore]
  obtain ⟨_, rfl⟩ | ⟨_, _, rfl⟩ | ⟨c, ⟨_, _, ho⟩, _⟩ | ⟨_, _, rfl⟩ := step_cases h
  · simp [hh]
  · simp [hh]
  · simp [offered, hh] at ho
  · obtain ⟨_, _, _, henv, _⟩ := sequencerEdge_keeps (atEdge s)
    rw [henv, hedge]

/-- From the beginning of the gap, clock edges alone end it (R134, R135). -/
theorem run_ends_gap_by_clock (hp : s.phase = .gap) (hr : s.env.rstIn = []) (hzero : s.gapCnt = 0) :
    ∃ (sched : List Mover) (u : State) (n : Nat),
      core.run sched.length (withSched sched s) = .next (gapEnd (atEdge u)) ∧ GapCounted (withSched sched s) u n := by
  have hcount : s.gapCnt + (List.replicate (gapCycles s.cfg - 1) Mover.clock).count .clock + 1 = gapCycles s.cfg := by
    rw [List.count_replicate_self, hzero, Nat.zero_add, Nat.sub_add_cancel (gapCycles_pos _)]
  obtain ⟨u, hrun, hu⟩ := run_ends_gap (s := withSched (List.replicate (gapCycles s.cfg - 1) .clock ++ [.clock]) s)
    hp hr hcount rfl
  exact ⟨_, u, _, by rwa [List.length_append], hu⟩

/-- Settles O54: acceptance, the 75 bytes, the drain and the gap, each reached from the one before; the gap takes its
GAP_CYCLES clock edges. -/
theorem frameCommandsSendOneFrameAndComplete : Obligations.FrameCommandsSendOneFrameAndComplete := by
  intro s c i p h hp hinit hr hh hd hi
  obtain ⟨owner, a, hstart, ha, hresp⟩ := reaches_frame h hp hinit hr hh hd hi
  obtain ⟨b, hsend, hb⟩ := ha.reaches_drain
  obtain ⟨g, hdrain, hg, hzero⟩ := hb.reaches_gap
  obtain ⟨moves, hrun⟩ := (hstart.trans hsend).trans hdrain
  obtain ⟨ticks, u, n, hend, hu⟩ := run_ends_gap_by_clock hg.phase_eq hg.rstIn hzero
  refine ⟨moves ++ ticks, moves.length + ticks.length, gapEnd (atEdge u), ?_, by simp, ?_, ?_, ?_, ?_⟩
  · exact (core_run_add (hrun ticks) _).trans hend
  · exact hresp _ (by simpa using hu.curOp.trans hg.curOp)
  · simpa using hu.pix.trans hg.pix
  · exact core_run_keeps (s := withSched ticks g) (P := fun s => s.env.host = []) step_keeps_empty_host hg.host hend
  · have hwhole : (frameBytes p).take 75 = frameBytes p := List.take_of_length_le (by simp)
    have hbytes : u.log.trace = s.log.trace ++ (frameBytes p).map .byte := by rw [hu.trace.trans hg.trace, hwhole]
    simp [hbytes]

end Sys2Proof.Machine
end

section
/-! PROOFS. The serpentine map M and its inverse (R161 to R163), and what MAP answers (R160). -/

namespace Sys2Proof.Machine

variable {s : State}

/- ## The map and its inverse -/

theorem mapIndex_mapInverse (i : Fin 25) : mapIndex (mapInverse i).1 (mapInverse i).2 = i :=
  (mapIndex_eq_iff (mapInverse i) i).2 rfl

theorem mapInverse_mapIndex (x y : Fin 5) : mapInverse (mapIndex x y) = (x, y) :=
  ((mapIndex_eq_iff (x, y) (mapIndex x y)).1 rfl).symm

/-- Settles O26: R163's closed form names the one cell that M sends to an index. -/
theorem serpentineMapInverse : Obligations.SerpentineMapInverse :=
  ⟨mapIndex_mapInverse, mapInverse_mapIndex⟩

/-- M has a two-sided inverse (R163), so it is a bijection (R162). -/
theorem mapIndex_bijective : Function.Bijective fun cell : Fin 5 × Fin 5 => mapIndex cell.1 cell.2 :=
  Function.bijective_iff_has_inverse.2
    ⟨mapInverse, fun cell => mapInverse_mapIndex cell.1 cell.2, mapIndex_mapInverse⟩

/-- Settles O25: the 25 values are evaluated, and the bijection comes from the inverse. -/
theorem serpentineMapTable : Obligations.SerpentineMapTable :=
  ⟨by decide, mapIndex_bijective⟩

/- ## What MAP answers -/

theorem exec_map_of_le {x y : Byte} (hx : x.toNat ≤ 4) (hy : y.toNat ≤ 4) (h : s.initDone = true) :
    exec (.map x y) s = .next (respond 0b101#3 .ok (BitVec.ofNat 5 (mapNat x.toNat y.toNat)) s) := by
  simp [exec, execMap, requireInit_of_done h, hx, hy]

/-- Settles O18: the gate is open and the cell is on the grid, so MAP responds with M of it, which is R161's formula. -/
theorem mapAnswersSerpentineIndex : Obligations.MapAnswersSerpentineIndex := by
  intro x y s hx hy h
  rw [exec_map_of_le hx hy h]
  rfl

/-- Settles O19: the classification of R82 gives such a coordinate the code OUT_OF_RANGE. -/
theorem mapOutsideTheGridFails : Obligations.MapOutsideTheGridFails := by
  intro x y s hxy h
  have hword : respWord 0b101#3 .outOfRange 0 = 0xA0000001#32 := by decide
  exact exec_of_errorCode_word (by simp [errorCode, h, hxy]) hword

end Sys2Proof.Machine
end

section
/-! PROOFS. DIGIT leaves the rendered glyph (R183 to R186), and INVALID_DIGIT (R202). -/

namespace Sys2Proof.Machine

variable {s : State} {d : Byte}

/- ## DIGIT of 0 to 9 -/

/-- DIGIT of a digit on the ROM leaves the buffer of R183 and starts its frame (R184). -/
theorem exec_digit_renders (hlt : d.toNat < 10) (h : s.initDone = true) :
    exec (.digit d) s =
      .next (startFrame .digit (withPix (Vector.ofFn (renderPixel (glyphRom s.cfg ⟨d.toNat, hlt⟩))) s)) := by
  rw [exec_digit_of_lt hlt h, paintGlyph_eq_render]

/-- The render function down to the bits of the glyph (R180, R183). -/
theorem renderPixel_eq (glyph : BitVec 25) :
    renderPixel glyph = fun i =>
      if glyph.getLsbD (5 * (mapInverse i).2.val + (mapInverse i).1.val) then 0x323232#24 else 0x000000#24 :=
  rfl

/-- Settles O20: the loops of R184 paint the render function of R183, which is the statement's buffer written out. -/
theorem digitRendersGlyphAndStartsFrame : Obligations.DigitRendersGlyphAndStartsFrame := by
  intro d s hlt h
  rw [exec_digit_renders hlt h, renderPixel_eq, startFrame, withPix]

/-- Every pixel of the next state is R183's. -/
theorem exec_digit_pixels (hlt : d.toNat < 10) (h : s.initDone = true) :
    ∃ t, exec (.digit d) s = .next t ∧ ∀ i : Fin 25, t.pix[i] = renderPixel (glyphRom s.cfg ⟨d.toNat, hlt⟩) i :=
  ⟨_, exec_digit_renders hlt h, fun i => Vector.getElem_ofFn i.isLt⟩

/-- GLYPH_COLOR is not the dark word (R33), so a pixel shows whether its cell is lit. -/
theorem renderPixel_ne_zero_iff (glyph : BitVec 25) (i : Fin 25) :
    renderPixel glyph i ≠ 0x000000#24 ↔ lit glyph (mapInverse i).1 (mapInverse i).2 = true := by
  by_cases hlit : lit glyph (mapInverse i).1 (mapInverse i).2 = true <;> simp [renderPixel, glyphColor, hlit]

/-- A physical index has a lit cell exactly when it is the image of one (R163). -/
theorem lit_mapInverse_iff (glyph : BitVec 25) (i : Fin 25) :
    lit glyph (mapInverse i).1 (mapInverse i).2 = true ↔
      ∃ x y : Fin 5, lit glyph x y = true ∧ i = mapIndex x y := by
  constructor
  · intro hlit
    exact ⟨_, _, hlit, (mapIndex_mapInverse i).symm⟩
  · rintro ⟨x, y, hlit, rfl⟩
    rwa [mapInverse_mapIndex]

/-- Settles O23: a pixel of the rendered buffer is non-zero where its cell is lit, and the cell is found by M. -/
theorem glyphRoundTrip : Obligations.GlyphRoundTrip := by
  intro d s hlt h
  obtain ⟨t, hexec, hpix⟩ := exec_digit_pixels hlt h
  refine ⟨t, hexec, fun i => ?_⟩
  rw [hpix, renderPixel_ne_zero_iff, lit_mapInverse_iff]

/-- RENDER(0), index by index (R186). -/
theorem renderPixel_glyphZero : ∀ i : Fin 25, renderPixel glyphZero i =
    if i ∈ [0, 1, 2, 3, 4, 5, 9, 10, 14, 15, 19, 20, 21, 22, 23, 24] then 0x323232#24 else 0x000000#24 := by
  decide

/-- Settles O24: GLYPH_ROM[0] is fixed in every configuration (R181), and its 25 pixels are evaluated. -/
theorem digitZeroLightsSixteenPixels : Obligations.DigitZeroLightsSixteenPixels := by
  intro s h
  obtain ⟨t, hexec, hpix⟩ := exec_digit_pixels (d := 0) (by decide) h
  exact ⟨t, hexec, fun i => (hpix i).trans (renderPixel_glyphZero i)⟩

/- ## DIGIT of 10 or more -/

/-- Settles O21: the classification of R82 gives such a digit the code INVALID_DIGIT. -/
theorem invalidDigitChangesNothing : Obligations.InvalidDigitChangesNothing := by
  intro d s hd h
  have hword : respWord 0b110#3 .invalidDigit 0 = 0xC0000002#32 := by decide
  exact exec_of_errorCode_word (by simp [errorCode, h, hd]) hword

end Sys2Proof.Machine
end

section
/-! PROOFS. The response (R205, R25): errors that only respond (R202, R203), and the edges that raise the pulse. -/

namespace Sys2Proof.Machine

variable {s t : State} {i : Instr}

/- ## Errors -/

/-- Before INIT the classification stops every command but NOP and INIT, before it looks at an operand (R82, R202). -/
theorem errorCode_before_init (hnop : i ≠ .nop) (hinit : i ≠ .init) : errorCode i false = some .notInitialized := by
  cases i with
  | nop => exact absurd rfl hnop
  | init => exact absurd rfl hinit
  | setpx _ _ _ _ | clear | flush | map _ _ | digit _ => rfl

/-- Settles O22: such a command has the code NOT_INITIALIZED, and a command raises the code it has. -/
theorem commandsBeforeInitAreRefused : Obligations.CommandsBeforeInitAreRefused := by
  intro i s h hnop hinit
  have hcode : errorCode i s.initDone = some .notInitialized := h ▸ errorCode_before_init hnop hinit
  exact exec_of_errorCode_word hcode rfl

/-- Settles O8: acceptance raises the code of the classification, and the state in which it does so differs from the
state before the edge only in the pulse and in the environment's inputs. -/
theorem errorsHaveNoSideEffect : Obligations.ErrorsHaveNoSideEffect := by
  intro s c code haccept hcode
  obtain ⟨hraise, _⟩ := acceptFollowsClassification c (atAcceptance s)
  have hstep := (step_of_acceptNext haccept).trans (hraise code (by simpa using hcode))
  obtain ⟨_, hp, _⟩ := haccept
  exact ⟨_, hstep, by simp [respWord, hp]⟩

/- ## The response pulse -/

/-- A command either responds in its acceptance step and leaves PHASE, or starts its frame and leaves the response
to GAP_END (R100, R130, R184). -/
theorem exec_responds_or_starts (he : exec i s = .next t) :
    (t.rspPulse = true ∧ t.phase = s.phase) ∨
    (t.phase = .tx ∧ t.rspPulse = s.rspPulse ∧ t.resp = s.resp) := by
  by_cases hi : i = .flush ∨ ∃ d, i = .digit d
  · obtain ⟨code, _, rfl⟩ | ⟨owner, p, _, _, rfl⟩ := exec_frame_cases hi he
    · exact .inl ⟨rfl, rfl⟩
    · exact .inr ⟨rfl, rfl, rfl⟩
  · obtain ⟨hflush, hdigit⟩ := not_or.1 hi
    obtain ⟨hpulse, hphase, _⟩ := exec_completes hflush (not_exists.1 hdigit) he
    exact .inl ⟨hpulse, hphase⟩

/-- Any accepted word responds in its acceptance step or starts a frame: an illegal one responds at once (R78). -/
theorem accept_responds_or_starts {c : Word} (ha : accept c s = .next t) :
    (t.rspPulse = true ∧ t.phase = s.phase) ∨
    (t.phase = .tx ∧ t.rspPulse = s.rspPulse ∧ t.resp = s.resp) := by
  obtain ⟨_, rfl⟩ | ⟨i, _, he⟩ := accept_cases ha
  · exact .inl ⟨rfl, rfl⟩
  · exact exec_responds_or_starts he

/-- The next sequencer edge is the GAP_END of a gap that a command owns (R135). -/
def OwnedGapEnds (s : State) : Prop := s.phase = .gap ∧ s.gapCnt = gapCycles s.cfg - 1 ∧ s.curOp ≠ .none

theorem ownedGapEnds_atEdge : OwnedGapEnds (atEdge s) ↔ OwnedGapEnds s := by simp [OwnedGapEnds]

/-- GAP_END responds to the command that owns the gap (R135). -/
theorem sequencerEdge_responds (h : OwnedGapEnds s) : (sequencerEdge s).rspPulse = true := by
  obtain ⟨hp, hlast, howner⟩ := h
  have hend : sequencerEdge s = gapEnd s := by simp [sequencerEdge, hp, gapEdge_of_last hlast]
  obtain ⟨hflush, hdigit, _⟩ := gapEnd_response s
  rw [hend]
  cases hcur : s.curOp with
  | none => exact absurd hcur howner
  | flush => exact (hflush hcur).2
  | digit => exact (hdigit hcur).2

/-- Every other sequencer edge leaves the response, GAP_END of the post-reset gap too (R135, R205). -/
theorem sequencerEdge_silent (h : ¬OwnedGapEnds s) :
    (sequencerEdge s).rspPulse = s.rspPulse ∧ (sequencerEdge s).resp = s.resp := by
  obtain heq | ⟨_, _, _, heq⟩ | ⟨_, _, _, heq⟩ | ⟨_, _, heq⟩ | ⟨_, _, heq⟩ | ⟨hp, hlast, heq⟩ :=
    sequencerEdge_cases s <;> rw [heq]
  · exact ⟨rfl, rfl⟩
  · exact ⟨rfl, rfl⟩
  · exact ⟨rfl, rfl⟩
  · exact ⟨rfl, rfl⟩
  · exact ⟨rfl, rfl⟩
  · have hnone : s.curOp = .none := by_contra fun howner => h ⟨hp, hlast, howner⟩
    obtain ⟨_, _, hpost⟩ := gapEnd_response s
    exact (hpost hnone).symm

/-- Settles O37: of the four things a step can be, an acceptance responds or starts a frame, an edge that accepts
nothing responds at the GAP_END of an owned gap, and neither a reset nor the line encoder responds. -/
theorem responsePulseLastsOneCycle : Obligations.ResponsePulseLastsOneCycle := by
  intro s t h
  obtain ⟨hm, rfl⟩ | ⟨hm, hr, rfl⟩ | ⟨c, ⟨⟨hm, hr⟩, hidle, ho⟩, ha⟩ | ⟨⟨hm, hr⟩, hquiet, rfl⟩ := step_cases h
  · simp [hm]
  · simp [hm, hr]
  · obtain ⟨hpulse, hphase⟩ | ⟨hphase, hpulse, hresp⟩ := accept_responds_or_starts ha
    · have hstays : t.phase = .idle := by simpa [hidle] using hphase
      simp [hm, hr, hidle, ho, hpulse, hstays]
    · simp [hm, hr, hidle, hphase, hpulse, hresp]
  · have hnoAccept : ¬(s.phase = .idle ∧ (offered s).isSome = true) := by
      rintro ⟨hidle, hsome⟩
      obtain hbusy | hnone := hquiet
      · exact hbusy hidle
      · simp [hnone] at hsome
    by_cases hend : OwnedGapEnds s
    · have hpulse := sequencerEdge_responds (ownedGapEnds_atEdge.2 hend)
      exact ⟨fun _ => ⟨fun _ => ⟨hr, .inr hend⟩, fun _ => hpulse⟩, by simp [hm], fun _ => ⟨hm, .inl hpulse⟩⟩
    · obtain ⟨hpulse, hresp⟩ := sequencerEdge_silent (mt ownedGapEnds_atEdge.1 hend)
      refine ⟨fun _ => ⟨fun hup => ?_, ?_⟩, by simp [hm], fun hne => absurd (by simpa using hresp) hne⟩
      · simp [hpulse] at hup
      · rintro ⟨_, ⟨hidle, hsome, _⟩ | howned⟩
        · exact absurd ⟨hidle, hsome⟩ hnoAccept
        · exact absurd howned hend

end Sys2Proof.Machine
end

section
/-! PROOFS. Reset edges (R230, R244), and what steps leave of an offer that waits (R236) and of a run that is over
(R245). -/

namespace Sys2Proof.Machine

variable {s t : State} {act : HostAct} {c : Word} {rest : List HostAct}

/- ## The reset edge -/

/-- Settles O42: the values are those of `resetBlock`, and of a frame cut in DRAIN the free number of bytes stays. -/
theorem resetEdgeWins : Obligations.ResetEdgeWins := by
  intro s hm hr
  have hbusy : s.phase ≠ .drain → traceAfterReset (popRst (popMover s)) = s.log.trace := fun hp => by
    simp [traceAfterReset_of_not_drain, hp]
  have hdrain : s.phase = .drain →
      ∃ n : Fin 75, traceAfterReset (popRst (popMover s)) = withoutLastBytes (75 - n.val) s.log.trace := fun hp =>
    ⟨Config.freeCut s.env.draws, by simp [traceAfterReset_of_drain, hp]⟩
  exact ⟨_, step_of_reset hm hr, by simpa [LineEncoder.afterReset] using ⟨hbusy, hdrain⟩⟩

/-- What a reset edge leaves of a frame under way: its beginning, shorter than the frame (R244). -/
theorem Inv.openFrame_afterReset (h : Inv s) (hp : s.phase = .tx ∨ s.phase = .drain) :
    ∃ n < 75, (s.phase = .tx → n = s.byteCnt.val) ∧
      openFrame (traceAfterReset s) = (frameBytes s.pix).take n := by
  obtain ⟨_, _, _, _, hframe⟩ := h
  obtain hp | hp := hp
  · refine ⟨s.byteCnt.val, s.byteCnt.isLt, fun _ => rfl, ?_⟩
    rw [traceAfterReset_of_not_drain (by simp [hp]), (frameInv_of_tx hp).1 hframe]
  · obtain ⟨_, hopen⟩ := withoutLastBytes_frames (75 - (Config.freeCut s.env.draws).val) s.log.trace
    refine ⟨_, (Config.freeCut s.env.draws).isLt, by simp [hp], ?_⟩
    rw [traceAfterReset_of_drain hp, hopen, (frameInv_of_drain hp).1 hframe, frameBytes_length,
      Nat.sub_sub_self (Config.freeCut s.env.draws).isLt.le]

/-- Settles O59: the reset edge leaves the frame's beginning open, and the LATCH of the post-reset gap closes it. -/
theorem resetInFrameLeavesShortByteList : Obligations.ResetInFrameLeavesShortByteList := by
  intro s moves later h hp hrst hcount hsched
  have hreset := step_of_reset (mover_of_clock hsched) (show rstLevel s = true by simp [rstLevel, hrst])
  obtain ⟨u, hrun, hu⟩ := run_ends_gap (s := resetBlock (popRst (popMover s))) (moves := moves) (later := later)
    (by simp) (by simp [hrst]) (by simpa using hcount) (by simp [hsched])
  obtain ⟨n, hlt, htx, hopen⟩ := (inv_popRst.2 (inv_popMover.2 h)).openFrame_afterReset (by simpa using hp)
  obtain ⟨hclosed, _⟩ := traceAfterReset_frames (popRst (popMover s))
  obtain ⟨_, _, hsilent⟩ := gapEnd_response (atEdge u)
  obtain ⟨hresp, hpulse⟩ := hsilent (by simp [hu.curOp])
  have htrace : (gapEnd (atEdge u)).log.trace = traceAfterReset (popRst (popMover s)) ++ [.latch] := by simp [hu.trace]
  refine ⟨gapEnd (atEdge u), n, (core_run_succ hreset _).trans hrun, hlt, by simpa using htx, ?_, ?_, by simp, ?_, ?_⟩
  · rw [htrace, closedFrames_latch, hclosed, hopen]
    simp
  · rw [htrace, openFrame_latch]
  · simp [hresp, hu.resp]
  · simp [hpulse]

/- ## An offer that waits -/

/-- The host holds the offer of a word: on the port until it is accepted, or by a write to CMD (R236, R57). -/
def HoldsOffer (cfg : Config) (act : HostAct) (c : Word) : Prop :=
  act = .offer c ∨ ∃ base, cfg.base = some base ∧ act = .store base 4 c

theorem HoldsOffer.commandWord {cfg : Config} (h : HoldsOffer cfg act c) : act.commandWord cfg = some c := by
  obtain rfl | ⟨base, hb, rfl⟩ := h
  · rfl
  · obtain ⟨hcmd, _⟩ := mapReg_of_base hb
    simp [hcmd]

/-- At an edge that does not accept it, the host keeps holding it. -/
theorem hostMove_of_holdsOffer (hh : s.env.host = act :: rest) (h : HoldsOffer s.cfg act c) : hostMove s = s := by
  obtain rfl | ⟨base, hb, rfl⟩ := h
  · exact hostMove_of_held hh (.inl ⟨c, rfl⟩)
  · obtain ⟨hcmd, _⟩ := mapReg_of_base hb
    exact hostMove_of_held hh (.inr ⟨base, 4, c, rfl, hcmd⟩)

/-- Settles O35: outside IDLE nothing is accepted, and no other step moves the host on from a held offer. -/
theorem offerWaitsWhileBusy : Obligations.OfferWaitsWhileBusy := by
  intro s t act c rest hp hh hact hstep
  have hheld : HoldsOffer s.cfg act c := hact
  have hhost : t.env.host = act :: rest := by
    obtain ⟨_, rfl⟩ | ⟨_, _, rfl⟩ | ⟨_, ⟨_, hidle, _⟩, _⟩ | ⟨_, _, rfl⟩ := step_cases hstep
    · simp [hh]
    · simp [hh]
    · exact absurd hidle hp
    · obtain ⟨_, _, _, henv, _⟩ := sequencerEdge_keeps (atEdge s)
      rw [henv, atEdge, hostMove_of_holdsOffer (by simpa using hh) (by simpa using hheld)]
      simp [hh]
  refine ⟨hhost, ?_⟩
  rw [offered_of_host hhost, step_cfg hstep, hheld.commandWord]

/- ## A run that is over -/

theorem runOver_iff : runOver s = true ↔ commandLeft s = false ∧ s.phase = .idle ∧ s.rspPulse = false := by
  simp [runOver, quiescent, rspValid]

/-- The acts left to the host are fewer after its move, and so are the commands among them. -/
theorem commandLeft_hostMove (h : commandLeft s = false) : commandLeft (hostMove s) = false := by
  have htail : ∀ acts : List HostAct, (acts.any fun act => (act.commandWord s.cfg).isSome) = false →
      (acts.tail.any fun act => (act.commandWord s.cfg).isSome) = false := fun acts hacts =>
    List.any_eq_false.2 fun act hact => List.any_eq_false.1 hacts act (List.mem_of_mem_tail hact)
  obtain heq | heq | ⟨v, heq⟩ := hostMove_cases s <;> rw [heq]
  · exact h
  · exact htail _ h
  · exact htail _ h

/-- Settles O58: with nothing offered and no reset, a step is a move of the line encoder or the host's move of a quiet
edge in IDLE, and neither touches what is observed. -/
theorem runThatIsOverKeepsItsResult : Obligations.RunThatIsOverKeepsItsResult := by
  intro s t hover hr hstep
  obtain ⟨hleft, hp, hpulse⟩ := runOver_iff.1 hover
  have ho : offered s = none := offered_of_no_commandLeft hleft
  have hpop : commandLeft (popMover s) = false := by simpa [commandLeft] using hleft
  cases hm : mover s with
  | lineEncoder =>
    obtain rfl : leMove (popMover s) = t := by simpa [step_of_lineEncoder hm] using hstep
    exact ⟨runOver_iff.2 ⟨by simpa [commandLeft] using hpop, by simpa using hp, by simpa using hpulse⟩,
      by simp [observed]⟩
  | clock =>
    obtain rfl := step_of_quietIdle hstep ⟨hm, hr⟩ hp ho
    exact ⟨runOver_iff.2 ⟨commandLeft_hostMove hpop, by simpa using hp, by simp⟩, by simp [observed]⟩

end Sys2Proof.Machine
end

section
/-! PROOFS. Before INIT the buffer cannot be observed (R235): the machine's moves carry any buffer along unread. -/

namespace Sys2Proof.Machine

variable {s t : State} {p : Vector Pixel 25}

/- ## Moves that do not read the buffer -/

theorem popMover_withPix (p : Vector Pixel 25) (s : State) : popMover (withPix p s) = withPix p (popMover s) := by
  unfold popMover
  rw [withPix_env]
  split <;> rfl

theorem popRst_withPix (p : Vector Pixel 25) (s : State) : popRst (withPix p s) = withPix p (popRst s) := rfl

theorem leMove_withPix (p : Vector Pixel 25) (s : State) : leMove (withPix p s) = withPix p (leMove s) := by
  obtain ⟨hsub, hbits, heq⟩ | ⟨hsub, hbits, heq⟩ | ⟨hsub, heq⟩ | ⟨hsub, heq⟩ := leMove_cases s <;> rw [heq]
  · exact leMove_of_noBits (s := withPix p s) hsub hbits
  · exact leMove_of_start (s := withPix p s) hsub hbits
  · exact leMove_of_high (s := withPix p s) hsub
  · exact leMove_of_low (s := withPix p s) hsub

/-- No register of the map shows the buffer (R57). -/
theorem hostMove_withPix (p : Vector Pixel 25) (s : State) : hostMove (withPix p s) = withPix p (hostMove s) := by
  unfold hostMove
  rw [withPix_env, withPix_cfg]
  split
  · rfl
  · rfl
  · rfl
  · rfl
  · split <;> rfl
  · split <;> rfl

/-- The edge's moves of reset level, pulse and host carry the buffer along. -/
theorem atEdge_withPix (p : Vector Pixel 25) (s : State) : atEdge (withPix p s) = withPix p (atEdge s) := by
  rw [atEdge, popMover_withPix]
  exact hostMove_withPix p (dropPulse (popRst (popMover s)))

theorem atAcceptance_withPix (p : Vector Pixel 25) (s : State) :
    atAcceptance (withPix p s) = withPix p (atAcceptance s) := by
  rw [atAcceptance, popMover_withPix]
  rfl

theorem drainEdge_withPix (p : Vector Pixel 25) (s : State) : drainEdge (withPix p s) = withPix p (drainEdge s) := by
  unfold drainEdge
  rw [apply_ite (withPix p)]
  rfl

theorem gapEnd_withPix (p : Vector Pixel 25) (s : State) : gapEnd (withPix p s) = withPix p (gapEnd s) := by
  unfold gapEnd
  rw [withPix_curOp]
  cases s.curOp <;> rfl

theorem gapEdge_withPix (p : Vector Pixel 25) (s : State) : gapEdge (withPix p s) = withPix p (gapEdge s) := by
  unfold gapEdge
  rw [gapEnd_withPix, apply_ite (withPix p), apply_ite (withPix p)]
  rfl

/-- The sequencer reads the buffer only in TX (R132). -/
theorem sequencerEdge_withPix (p : Vector Pixel 25) (hp : s.phase ≠ .tx) :
    sequencerEdge (withPix p s) = withPix p (sequencerEdge s) := by
  unfold sequencerEdge
  rw [withPix_phase]
  cases hphase : s.phase with
  | idle => rfl
  | tx => exact absurd hphase hp
  | drain => exact drainEdge_withPix p s
  | gap => exact gapEdge_withPix p s

/-- A reset edge draws the buffer afresh, and reads nothing of the old one (R230, R36). -/
theorem resetBlock_withPix (p : Vector Pixel 25) (s : State) : resetBlock (withPix p s) = resetBlock s := rfl

/- ## Steps before INIT -/

/-- `t'` is `t` up to the buffer, and once INIT is done they are the same (R235). -/
def SameButPix (t t' : State) : Prop := t' = withPix t'.pix t ∧ (t.initDone = true → t' = t)

theorem SameButPix.refl (t : State) : SameButPix t t := ⟨rfl, fun _ => rfl⟩

theorem SameButPix.of_not_done (h : t.initDone = false) (p : Vector Pixel 25) : SameButPix t (withPix p t) :=
  ⟨rfl, fun hdone => by simp [h] at hdone⟩

/-- A response does not show the buffer (R205). -/
theorem SameButPix.of_respond (h : s.initDone = false) (op : Op) (code : Code) (p : Vector Pixel 25) :
    SameButPix (respond op code 0 s) (respond op code 0 (withPix p s)) :=
  .of_not_done (t := respond op code 0 s) h p

/-- Before INIT, NOP only responds and every other command but INIT is refused (R101, R202). -/
theorem exec_before_init {i : Instr} (h : s.initDone = false) (hi : i ≠ .init) :
    exec i s = .next (respond i.op (if i = .nop then .ok else .notInitialized) 0 s) := by
  by_cases hnop : i = .nop
  · subst hnop
    exact exec_nop s
  · rw [if_neg hnop]
    exact exec_of_errorCode (h ▸ errorCode_before_init hnop hi)

/-- Acceptance before INIT: INIT overwrites the buffer (R102), and no other word looks at it. -/
theorem accept_before_init (h : s.initDone = false) (c : Word) (p : Vector Pixel 25) :
    ∃ t t', accept c s = .next t ∧ accept c (withPix p s) = .next t' ∧ SameButPix t t' := by
  cases hd : decode c with
  | error e => exact ⟨_, _, accept_of_error hd s, accept_of_error hd _, .of_respond h _ _ p⟩
  | ok i =>
    rw [accept_of_ok hd, accept_of_ok hd]
    by_cases hi : i = .init
    · subst hi
      exact ⟨_, _, exec_init_of_not_done h, exec_init_of_not_done (s := withPix p s) h, .refl _⟩
    · exact ⟨_, _, exec_before_init h hi, exec_before_init (s := withPix p s) h hi, .of_respond h _ _ p⟩

/-- Before INIT no frame is under way (R235). -/
theorem Inv.not_tx_before_init (h : Inv s) (hinit : s.initDone = false) : s.phase ≠ .tx := by
  obtain ⟨⟨_, hsome, hdone⟩, _⟩ := h
  intro hp
  simp [hdone (hsome (.inl hp))] at hinit

/-- An edge that accepts nothing and does not find the machine stuck is the host's move and the sequencer's. -/
theorem step_of_edge (h : edgeNext s) (hquiet : s.phase ≠ .idle ∨ offered s = none)
    (hs : machineStuck (popRst (popMover s)) = false) : step s = .next (sequencerEdge (atEdge s)) := by
  rw [step_of_not_machineStuck h hs]
  obtain ⟨t, hrun⟩ := runEdge_goesOn (popRst (popMover s))
  obtain ⟨c, hp, ho, _⟩ | ⟨_, rfl⟩ := runEdge_cases hrun
  · obtain hbusy | hnone := hquiet
    · exact absurd (by simpa using hp) hbusy
    · simp [hnone] at ho
  · exact hrun

/-- An edge that goes on does not find the machine stuck (X5). -/
theorem not_machineStuck_of_next (h : edgeNext s) (hstep : step s = .next t) :
    machineStuck (popRst (popMover s)) = false :=
  Bool.eq_false_iff.2 fun hs => by simp [step_of_machineStuck h hs] at hstep

/-- Whether the machine is stuck does not depend on the buffer (X5). -/
theorem machineStuck_withPix (p : Vector Pixel 25) (s : State) :
    machineStuck (popRst (popMover (withPix p s))) = machineStuck (popRst (popMover s)) := by
  rw [popMover_withPix]
  rfl

/-- Settles O47: each of the four things a step can be, with the other buffer; INIT and a reset edge overwrite the
buffer, and everything else carries it along. -/
theorem bufferBeforeInitIsUnobservable : Obligations.BufferBeforeInitIsUnobservable := by
  intro s t p h hinit hstep
  change ∃ t', step (withPix p s) = .next t' ∧ SameButPix t t'
  obtain ⟨hm, rfl⟩ | ⟨hm, hr, rfl⟩ | ⟨c, haccept, ha⟩ | ⟨hedge, hquiet, rfl⟩ := step_cases hstep
  · refine ⟨_, step_of_lineEncoder (s := withPix p s) hm, ?_⟩
    rw [popMover_withPix, leMove_withPix]
    exact .of_not_done (by simpa using hinit) p
  · refine ⟨_, step_of_reset (s := withPix p s) hm hr, ?_⟩
    rw [popMover_withPix, popRst_withPix, resetBlock_withPix]
    exact .refl _
  · obtain ⟨t₁, t', ha₁, ha', hsame⟩ := accept_before_init (s := atAcceptance s) (by simpa using hinit) c p
    obtain rfl : t₁ = t := by simpa [ha₁] using ha
    exact ⟨t', by rw [step_of_acceptNext (s := withPix p s) haccept, atAcceptance_withPix, ha'], hsame⟩
  · have hs := (machineStuck_withPix p s).trans (not_machineStuck_of_next hedge hstep)
    refine ⟨_, step_of_edge (s := withPix p s) hedge hquiet hs, ?_⟩
    have hp : (atEdge s).phase ≠ .tx := by simpa using h.not_tx_before_init hinit
    obtain ⟨_, hkept, _⟩ := sequencerEdge_keeps (atEdge s)
    rw [atEdge_withPix, sequencerEdge_withPix p hp]
    exact .of_not_done (by simpa [hinit] using hkept) p

end Sys2Proof.Machine
end
